-- ==== Sys2Proof/Word.lean ====
section
/-! DEFINITION. The word types of the block's port (20_memory.md R60, R62) and their plainest arithmetic (00_scope.md R9, R10). -/

namespace Sys2Proof

/-- One element of the `REG` or `TAB` space: `PW = 64` bits (00_scope.md R6, 20_memory.md R62). -/
abbrev Word := BitVec 64

/-- One element of the `DATA` space: 8 bits (20_memory.md R65). -/
abbrev Byte := BitVec 8

/-- `mask(n) = 2^n - 1` (00_scope.md R10). -/
def mask (n : Nat) : Nat := 2 ^ n - 1

/-- `value` has no bit at or above position `width`: the test `(value >> width) == 0` of R111, R121, R130, R132. -/
def fits (value width : Nat) : Bool := value >>> width == 0

end Sys2Proof
end

