-- ==== Sys2Proof/Machine/BitReversal.lean ====
section
/-! DEFINITION. The bit-reversal unit (40_bit_reversal.md R100 to R102). -/

namespace Sys2Proof.Machine

/-- `reverse_bits(value, n)`: bit `i` of the input, `i < n`, becomes bit `n-1-i` of the output (R100).
Bit 0 goes to position `n-1`, and the bits above it are reversed over the remaining `n-1` positions. -/
def reverseBits (value : Nat) : Nat → Nat
  | 0 => 0
  | n + 1 => value % 2 * 2 ^ n + reverseBits (value / 2) n

/-- The byte-reversal ROM: `BREV[i] = reverse_bits(i, 8)` (R102). -/
def brev (i : Byte) : Byte := BitVec.ofNat 8 (reverseBits i.toNat 8)

/-- The byte-at-a-time realisation of R101: the bytes `0 .. nb-1` of the group `t`, each reversed by the ROM and put at the mirrored place. -/
def reverseBytes (t nb : Nat) : Nat → Nat
  | 0 => 0
  | b + 1 => reverseBytes t nb b ||| ((brev (BitVec.ofNat 8 (t >>> (8 * b)))).toNat <<< (8 * (nb - 1 - b)))

/-- R101: the field moved to the top of a group of whole bytes, then reversed a byte at a time. -/
def reverseBitsByBytes (value n : Nat) : Nat :=
  let nb := (n + 7) / 8
  reverseBytes ((value &&& mask n) <<< (8 * nb - n)) nb nb

end Sys2Proof.Machine
end

