-- ==== Sys2Proof/Syntax.lean ====
section
/-! DEFINITION. The thirteen commands (30_encoding.md R82), one constructor per row of the opcode table. -/

namespace Sys2Proof

/-- A command of the block. Operands are implicit but for `ARG`, `SO` and `DL` (30_encoding.md R84). -/
inductive Instr where
  /-- `REV <nbits>`: reverse the low `nbits` bits of `OPA` (R103). -/
  | rev (nbits : Nat)
  /-- `GENTAB.M`: generate the MSB-first table (R114). -/
  | gentabM
  /-- `GENTAB.L`: generate the LSB-first table (R115). -/
  | gentabL
  /-- `BUILD.TLSB`: construct the table-driven LSB-first engine (R124). -/
  | buildTlsb
  /-- `BUILD.TMSB`: construct the table-driven MSB-first engine (R125). -/
  | buildTmsb
  /-- `BUILD.GMSB`: construct the bit-by-bit MSB-first generic engine (R126). -/
  | buildGmsb
  /-- `BUILD.GLSB`: construct the bit-by-bit LSB-first generic engine (R127). -/
  | buildGlsb
  /-- `BUILD.WIN`: construct the windowed engine (R128). -/
  | buildWin
  /-- `BUILD.AUTO`: the selecting factory (R129). -/
  | buildAuto
  /-- `CALC`, `CALC.SO`: run the built engine over the whole byte sequence (R130). -/
  | calcBuffer (so : Bool)
  /-- `CALCW`, `CALCW.SO`, `CALCW.DL`, `CALCW.SO.DL`: run the windowed engine over a bit range (R132). -/
  | calcWindow (so dl : Bool)
  /-- `CLRERR`: acknowledge errors (R180). -/
  | clrerr
  /-- `SRST`: soft reset (R181). -/
  | srst
  deriving DecidableEq, Repr

end Sys2Proof
end

