-- ==== Sys2Proof/WellFormed.lean ====
section
/-! DEFINITION. Which commands can be written as a command word: the one immediate, `ARG`, has 8 bits (30_encoding.md R85). -/

namespace Sys2Proof

/-- The command has a command word: `NBITS = ARG` lies in 0..255 (R85). Its legality, 1..64, is the command's own check (R103). -/
def Instr.wellFormed : Instr → Bool
  | .rev nbits => nbits < 256
  | .gentabM => true
  | .gentabL => true
  | .buildTlsb => true
  | .buildTmsb => true
  | .buildGmsb => true
  | .buildGlsb => true
  | .buildWin => true
  | .buildAuto => true
  | .calcBuffer _ => true
  | .calcWindow _ _ => true
  | .clrerr => true
  | .srst => true

end Sys2Proof
end

