-- ==== Sys2Proof/Decode.lean ====
section
/-! DEFINITION. The command word: the opcode table (30_encoding.md R82, R83), decoding of any 64-bit value written to `CMD` (R86), and the encoder (R81, R83, R88). -/

namespace Sys2Proof

/-- Why a value written to `CMD` is no command (R86). -/
inductive DecodeError where
  /-- `CMD[7:0]` is none of the thirteen opcodes. -/
  | illOp
  /-- A defined opcode with a non-zero must-be-zero field, or `CMD[63:32] ≠ 0`. -/
  | illField
  deriving DecidableEq, Repr

/-- `ARG`, bits 15..8 of the command word, as an unsigned integer (R81, R85). -/
def argField (w : BitVec 32) : Nat := (w.extractLsb' 8 8).toNat

/-- `SO`, bit 16 of the command word (R81). -/
def soField (w : BitVec 32) : Bool := w.getLsbD 16

/-- `DL`, bit 17 of the command word (R81). -/
def dlField (w : BitVec 32) : Bool := w.getLsbD 17

/-- One row of R83: the fixed bits, which bits are fixed, and the command that the free fields make. -/
structure OpcodeRow where
  pattern : BitVec 32
  mask : BitVec 32
  command : BitVec 32 → Instr

/-- The opcode table, row by row as R83 lists it. -/
def opcodeTable : List OpcodeRow :=
  [ ⟨0x00000001#32, 0xFFFF00FF#32, fun w => .rev (argField w)⟩,
    ⟨0x00000002#32, 0xFFFFFFFF#32, fun _ => .gentabM⟩,
    ⟨0x00000003#32, 0xFFFFFFFF#32, fun _ => .gentabL⟩,
    ⟨0x00000010#32, 0xFFFFFFFF#32, fun _ => .buildTlsb⟩,
    ⟨0x00000011#32, 0xFFFFFFFF#32, fun _ => .buildTmsb⟩,
    ⟨0x00000012#32, 0xFFFFFFFF#32, fun _ => .buildGmsb⟩,
    ⟨0x00000013#32, 0xFFFFFFFF#32, fun _ => .buildGlsb⟩,
    ⟨0x00000014#32, 0xFFFFFFFF#32, fun _ => .buildWin⟩,
    ⟨0x0000001F#32, 0xFFFFFFFF#32, fun _ => .buildAuto⟩,
    ⟨0x00000020#32, 0xFFFEFFFF#32, fun w => .calcBuffer (soField w)⟩,
    ⟨0x00000021#32, 0xFFFCFFFF#32, fun w => .calcWindow (soField w) (dlField w)⟩,
    ⟨0x00000030#32, 0xFFFFFFFF#32, fun _ => .clrerr⟩,
    ⟨0x0000003F#32, 0xFFFFFFFF#32, fun _ => .srst⟩ ]

/-- The row whose `OP` byte is `op`, if `op` is a defined opcode (R82). -/
def opcodeRow (op : Byte) : Option OpcodeRow :=
  opcodeTable.find? fun r => r.pattern.extractLsb' 0 8 == op

/-- Decoding of a value `c` written to `CMD`, in R86's order: an undefined opcode first, then the must-be-zero bits. -/
def decode (c : Word) : Except DecodeError Instr :=
  let w : BitVec 32 := c.extractLsb' 0 32
  match opcodeRow (w.extractLsb' 0 8) with
  | none => .error .illOp
  | some r =>
    if c.extractLsb' 32 32 ≠ 0#32 ∨ w &&& r.mask ≠ r.pattern then .error .illField
    else .ok (r.command w)

/-- The command word from its four fields; every reserved bit is 0 (R81). -/
def commandWord (op arg : Nat) (so dl : Bool) : Word :=
  BitVec.ofNat 64 (op + arg * 2 ^ 8 + so.toNat * 2 ^ 16 + dl.toNat * 2 ^ 17)

/-- The value to write to `CMD` for a command (R82, R88). -/
def encode : Instr → Word
  | .rev nbits => commandWord 0x01 nbits false false
  | .gentabM => commandWord 0x02 0 false false
  | .gentabL => commandWord 0x03 0 false false
  | .buildTlsb => commandWord 0x10 0 false false
  | .buildTmsb => commandWord 0x11 0 false false
  | .buildGmsb => commandWord 0x12 0 false false
  | .buildGlsb => commandWord 0x13 0 false false
  | .buildWin => commandWord 0x14 0 false false
  | .buildAuto => commandWord 0x1F 0 false false
  | .calcBuffer so => commandWord 0x20 0 so false
  | .calcWindow so dl => commandWord 0x21 0 so dl
  | .clrerr => commandWord 0x30 0 false false
  | .srst => commandWord 0x3F 0 false false

/-- What the decoder reads from a word of `nbits` bits, all bits above them zero (the host's view of the opcode table). -/
def decodeTableWord (nbits w : Nat) : Option Instr :=
  match decode (BitVec.ofNat 64 (w % 2 ^ nbits)) with
  | .ok i => some i
  | .error _ => none

end Sys2Proof
end

