-- ==== Sys2Proof/Config.lean ====
section
/-! DEFINITION. The parameters of the block (00_scope.md R6), its two constant registers, and the values the spec leaves free (70_reset_and_hazards.md R213). -/

namespace Sys2Proof.Config

/-- `WMAX`: the largest CRC width and the largest `NBITS` (R6). -/
def wmax : Nat := 64

/-- `BUFSZ`: the size in bytes of the `DATA` buffer (R6). -/
def bufsz : Nat := 4096

/-- `TABN`: the entries of the lookup table and of the byte-reversal ROM (R6). -/
def tabn : Nat := 256

/-- The constant the `ID` register reads as (10_state.md R22). -/
def idWord : Word := 0x43524301#64

/-- The constant the `CAP` register reads as: `WMAX` in bits 7..0, `BUFSZ` in bits 31..8 (10_state.md R23). -/
def capWord : Word := 0x00100040#64

/-- FREE VALUE (log 4): what `DATA[a]` holds while the host has not written it since the last reset.
The first argument numbers the reset (`State.draws`), the second is the address. R213(a), D36 `INIT_DATA`, U1. -/
opaque initData : Nat → Nat → Byte

/-- FREE VALUE (log 5): what `TABLE[i]` holds while no table has been generated since the last reset.
The first argument numbers the reset (`State.draws`), the second is the index. R213(b), D36 `INIT_TABLE`, U2. -/
opaque initTable : Nat → Nat → Word

end Sys2Proof.Config
end

