-- ==== Sys2Proof/Machine/State.lean ====
section
/-! DEFINITION. Everything the spec gives the block to hold (10_state.md R20, R46), the host's inputs waiting at the port, why a step can stop, and the state after reset (70_reset_and_hazards.md R210). -/

namespace Sys2Proof.Machine

/-- `ECFG.KIND`: which of the five engines is built, "a closed set of tagged variants" (R41, R120; log 9). -/
inductive Kind where
  | tlsb
  | tmsb
  | gmsb
  | glsb
  | win
  deriving DecidableEq, Repr

/-- `TCFG.CONV`: the bit convention a table was generated for (R43). -/
inductive Conv where
  | msb
  | lsb
  deriving DecidableEq, Repr

/-- The stored bits of `STATUS` (R38). `BUSY` always reads 0 and is not stored (log 10). -/
structure Status where
  done : Bool
  err : Bool
  rv : Bool
  ev : Bool
  tv : Bool
  estk : Bool
  deriving DecidableEq, Repr

/-- The staged Parameter Set: `POLY`, `WIDTH`, `SEED`, `XOROUT` and the two bits of `FLAGS` (R26 to R31). -/
structure Params where
  poly : Word
  width : Word
  seed : Word
  xorout : Word
  refin : Bool
  refout : Bool
  deriving DecidableEq, Repr

/-- The latched engine: `EPOLY`, `ESEED`, `EXOROUT`, `EMASK` (R40) and the fields of `ECFG` (R41). -/
structure Engine where
  epoly : Word
  eseed : Word
  exorout : Word
  emask : Word
  width : BitVec 8
  refin : Bool
  refout : Bool
  rr : Bool
  kind : Kind
  lshift : BitVec 3
  deriving DecidableEq, Repr

/-- The table descriptor: `TCFG.WIDTH`, `TCFG.CONV`, `TPOLY` (R43). `TCFG.VALID` is `STATUS.TV` under a second name (log 10). -/
structure TableInfo where
  width : BitVec 8
  conv : Conv
  tpoly : Word
  deriving DecidableEq, Repr

/-- The three address spaces of the host port (R60). -/
inductive Space where
  | reg
  | data
  | tab
  deriving DecidableEq, Repr

/-- What the outside can do to the block between two commands: the two port operations of R61, and the reset input of R210 (log 3). -/
inductive Input where
  /-- `HostWrite(space, addr, value)`. -/
  | write (space : Space) (addr : Nat) (value : Word)
  /-- `HostRead(space, addr)`. -/
  | read (space : Space) (addr : Nat)
  /-- The hardware reset. -/
  | reset
  deriving DecidableEq, Repr

/-- `DATA`: the bytes the host has written since the last reset, by address (R65, R213; log 7). -/
abbrev Memory := List Host.Cell

/-- The canonical form of `DATA`: addresses strictly rising, each inside `0 .. BUFSZ-1`.
An address that is not listed reads as no value here, so no entry can equal it (log 7). -/
abbrev Memory.wf (m : Memory) : Prop :=
  m.Pairwise (fun x y => x.1 < y.1) ∧ ∀ c ∈ m, c.1 < Config.bufsz

/-- The whole state: the block's own (R20), and the model's own `draws`, `script` and `reads`. -/
structure State where
  /-- `STATUS` (R38). -/
  status : Status
  /-- `ERRCODE` (R39). -/
  errcode : Byte
  /-- `POLY`, `WIDTH`, `SEED`, `XOROUT`, `FLAGS` (R27 to R31). -/
  params : Params
  /-- `OPA` (R32). -/
  opa : Word
  /-- `SEEDOVR` (R33). -/
  seedovr : Word
  /-- `DLEN` (R34). -/
  dlen : Word
  /-- `START`, two's complement (R35). -/
  start : Word
  /-- `LENGTH`, two's complement (R36). -/
  length : Word
  /-- `RESULT` (R37). -/
  result : Word
  /-- `EPOLY`, `ESEED`, `EXOROUT`, `EMASK`, `ECFG` (R40, R41). -/
  engine : Engine
  /-- `TCFG`, `TPOLY` (R43). -/
  tableInfo : TableInfo
  /-- `TABLE[0..255]`, entry 0 first; empty while nothing has been generated since the last reset (R42, R213; log 5). -/
  table : List Word
  /-- `DATA[0..4095]` (R65). -/
  data : Memory
  /-- The model's own: how many resets have redrawn the unspecified contents (R213; log 6). -/
  draws : Nat
  /-- The model's own: the host's remaining inputs, next first (R13, R24; log 1). -/
  script : List Input
  /-- The model's own: the values the host's reads have returned, oldest first (R13; log 1). -/
  reads : List Word
  deriving DecidableEq, Repr

/-- Why the machine can stop. The spec stops the block nowhere (R7, R13). -/
inductive Fault where
  /-- Raised by `CALC` and `CALCW` on a latched engine whose shift count `w - 8` or `rw - 8` would be negative.
  A negative shift has no meaning (R10, U8) and a model must not give it one (R144).
  No state that a run from reset reaches holds such an engine. Safe (log 8). -/
  | negativeShift
  deriving DecidableEq, Repr

/-- Why the model can decline an instruction. -/
inductive Refusal where
  /-- Kept for an arm of `exec` without a meaning; no arm is left so. Safe. -/
  | notModelled (mnemonic : String)
  deriving DecidableEq, Repr

/-- What a command or a step answers. -/
abbrev Out := Host.Outcome State Fault Refusal

/-- The registers all zero, as R46 and R210 give every register but the constants `ID` and `CAP`. -/
def State.reset : State where
  status := ⟨false, false, false, false, false, false⟩
  errcode := 0#8
  params := ⟨0#64, 0#64, 0#64, 0#64, false, false⟩
  opa := 0#64
  seedovr := 0#64
  dlen := 0#64
  start := 0#64
  length := 0#64
  result := 0#64
  engine := ⟨0#64, 0#64, 0#64, 0#64, 0#8, false, false, false, .tlsb, 0#3⟩
  tableInfo := ⟨0#8, .msb, 0#64⟩
  table := []
  data := []
  draws := 0
  script := []
  reads := []

end Sys2Proof.Machine
end

