-- ==== Sys2Proof/Machine/Flags.lean ====
section
/-! DEFINITION. The words that the flag and field registers read as (10_state.md R31, R38, R41, R43). -/

namespace Sys2Proof.Machine

/-- `STATUS` as the host reads it; `BUSY` and the reserved bits read 0 (R38). -/
def Status.toWord (f : Status) : Word :=
  BitVec.ofNat 64 (f.done.toNat + f.err.toNat * 2 ^ 1 + f.rv.toNat * 2 ^ 2 + f.ev.toNat * 2 ^ 3
    + f.tv.toNat * 2 ^ 4 + f.estk.toNat * 2 ^ 5)

/-- `FLAGS`: `REFIN` in bit 0, `REFOUT` in bit 1 (R31). -/
def flagsWord (refin refout : Bool) : Word :=
  BitVec.ofNat 64 (refin.toNat + refout.toNat * 2 ^ 1)

/-- The code of a kind in `ECFG.KIND` (R41). -/
def Kind.code : Kind → Nat
  | .tlsb => 0
  | .tmsb => 1
  | .gmsb => 2
  | .glsb => 3
  | .win => 4

/-- Kinds TLSB and TMSB use the table; the others use none (R41). -/
def Kind.usesTable : Kind → Bool
  | .tlsb => true
  | .tmsb => true
  | .gmsb => false
  | .glsb => false
  | .win => false

/-- `ECFG` as the host reads it (R41). -/
def Engine.ecfg (e : Engine) : Word :=
  BitVec.ofNat 64 (e.width.toNat + e.refin.toNat * 2 ^ 8 + e.refout.toNat * 2 ^ 9 + e.rr.toNat * 2 ^ 10
    + e.kind.code * 2 ^ 11 + e.lshift.toNat * 2 ^ 16)

/-- The code of a convention in `TCFG.CONV` (R43). -/
def Conv.code : Conv → Nat
  | .msb => 0
  | .lsb => 1

/-- `TCFG` as the host reads it: `WIDTH`, `CONV`, and `VALID`, the copy of `STATUS.TV` (R43). -/
def tcfgWord (t : TableInfo) (tv : Bool) : Word :=
  BitVec.ofNat 64 (t.width.toNat + t.conv.code * 2 ^ 8 + tv.toNat * 2 ^ 9)

end Sys2Proof.Machine
end

