-- ==== Sys2Proof/Machine/Ops.lean ====
section
/-! DEFINITION. The operations every command shares: the errors and error entry (60_exceptions.md R186 to R190), completion (R189), the DATA buffer and the table (20_memory.md R64, R65), the register map (10_state.md R46), and reset (70_reset_and_hazards.md R210). -/

namespace Sys2Proof.Machine

/-! ### Errors -/

/-- Every error the block can raise, in the order of R186's table. -/
inductive Err where
  | rngStartNeg
  | rngStartHigh
  | rngLenNeg
  | rngEndHigh
  | cfgWidthZero
  | cfgWidthBig
  | cfgPolyWide
  | cfgSeedWide
  | cfgXoroutWide
  | cfgConv
  | cfgTmsbNarrow
  | cfgSeedovrWide
  | intResidue
  | illOp
  | illField
  | illNbits
  | illNoengine
  | illNotwin
  | illSeedovr
  | illDlen
  deriving DecidableEq, Repr

/-- The value an error writes to `ERRCODE` (R186). -/
def Err.code : Err → Byte
  | .rngStartNeg => 0x10#8
  | .rngStartHigh => 0x11#8
  | .rngLenNeg => 0x12#8
  | .rngEndHigh => 0x13#8
  | .cfgWidthZero => 0x20#8
  | .cfgWidthBig => 0x21#8
  | .cfgPolyWide => 0x22#8
  | .cfgSeedWide => 0x23#8
  | .cfgXoroutWide => 0x24#8
  | .cfgConv => 0x25#8
  | .cfgTmsbNarrow => 0x26#8
  | .cfgSeedovrWide => 0x27#8
  | .intResidue => 0x30#8
  | .illOp => 0x40#8
  | .illField => 0x41#8
  | .illNbits => 0x42#8
  | .illNoengine => 0x43#8
  | .illNotwin => 0x44#8
  | .illSeedovr => 0x45#8
  | .illDlen => 0x46#8

/-- The error of a word that is no command (R86). -/
def Err.ofDecode : DecodeError → Err
  | .illOp => .illOp
  | .illField => .illField

/-- One command reports one error: the first failing check in the fixed order of its rule (R187). -/
def firstFailing : List (Bool × Err) → Option Err
  | [] => none
  | (failing, e) :: rest => if failing then some e else firstFailing rest

/-! ### The end of a command -/

/-- Error entry, the whole of the block's trap entry (R190). -/
def State.raiseError (e : Err) (s : State) : State :=
  { s with
    status := { s.status with done := false, err := true, estk := true, rv := false }
    errcode := e.code
    result := 0#64 }

/-- `Complete()`, the successful end of a command (R189). There is no return from an error: nothing was suspended (R191). -/
def State.complete (s : State) : State :=
  { s with status := { s.status with done := true, err := false }, errcode := 0#8 }

/-- `REG.RESULT <- r`, `REG.STATUS.RV <- 1` (R103, R130, R132). -/
def State.setResult (r : Nat) (s : State) : State :=
  { s with result := BitVec.ofNat 64 r, status := { s.status with rv := true } }

/-- A command with checks: the first failing check raises its error, and otherwise the command goes on (R187, R188). -/
def State.guarded (checks : List (Bool × Err)) (s : State) (go : State → Out) : Out :=
  match firstFailing checks with
  | some e => .next (s.raiseError e)
  | none => go s

/-- The end of a command that produces a result or an error (R130, R132). -/
def State.finishWith (r : Except Err Nat) (s : State) : State :=
  match r with
  | .ok v => (s.setResult v).complete
  | .error e => s.raiseError e

/-! ### DATA and TABLE -/

/-- The byte listed for an address, if one is. -/
def Memory.lookup : Memory → Nat → Option Byte
  | [], _ => none
  | (a, b) :: rest, x => if a = x then some b else Memory.lookup rest x

/-- The memory after one byte is written, in canonical form again. -/
def Memory.write : Memory → Nat → Byte → Memory
  | [], x, v => [(x, v)]
  | (a, b) :: rest, x, v =>
    if x < a then (x, v) :: (a, b) :: rest
    else if x = a then (a, v) :: rest
    else (a, b) :: Memory.write rest x v

/-- `MemRead(DATA, a, 1)`: the byte the host wrote, or the free value the address has held since the last reset (R65, R213; log 4). -/
def State.dataByte (s : State) (a : Nat) : Byte :=
  (Memory.lookup s.data a).getD (Config.initData s.draws a)

/-- `MemWrite(DATA, a, 1, v)` (R65). -/
def State.writeData (a : Nat) (v : Byte) (s : State) : State :=
  { s with data := Memory.write s.data a v }

/-- `TABLE[i]`: the generated entry, or the free value the index has held since the last reset (R64, R213; log 5). -/
def State.tableEntry (s : State) (i : Nat) : Word :=
  (s.table[i]?).getD (Config.initTable s.draws i)

/-- A table generation writes all 256 entries, `TPOLY`, `TCFG` and `TV` (R114, R115, R123). -/
def State.writeTable (conv : Conv) (poly width : Word) (t : List Nat) (s : State) : State :=
  { s with
    table := t.map (BitVec.ofNat 64)
    tableInfo := { width := width.setWidth 8, conv := conv, tpoly := poly }
    status := { s.status with tv := true } }

/-- Engine invalidation by a successful `GENTAB` (R116). -/
def State.invalidateEngine (s : State) : State :=
  { s with status := { s.status with ev := s.status.ev && !s.engine.kind.usesTable } }

/-! ### Reset -/

/-- The state after a reset of a running block: every register at its reset value, the unspecified contents drawn anew, and the host's script and observation untouched (R181, R210, R212, R213; log 3, log 6). -/
def State.toReset (s : State) : State :=
  { State.reset with draws := s.draws + 1, script := s.script, reads := s.reads }

/-! ### The register map -/

/-- The implemented registers of the `REG` space (R46). -/
inductive Reg where
  | id
  | cap
  | cmd
  | status
  | errcode
  | poly
  | width
  | seed
  | xorout
  | flags
  | opa
  | seedovr
  | dlen
  | start
  | length
  | result
  | epoly
  | eseed
  | exorout
  | emask
  | ecfg
  | tcfg
  | tpoly
  deriving DecidableEq, Repr

/-- The register with a register number; every other number is unimplemented (R46, R69). -/
def Reg.ofNumber : Nat → Option Reg
  | 0x00 => some .id
  | 0x01 => some .cap
  | 0x02 => some .cmd
  | 0x03 => some .status
  | 0x04 => some .errcode
  | 0x08 => some .poly
  | 0x09 => some .width
  | 0x0A => some .seed
  | 0x0B => some .xorout
  | 0x0C => some .flags
  | 0x0D => some .opa
  | 0x0E => some .seedovr
  | 0x10 => some .dlen
  | 0x11 => some .start
  | 0x12 => some .length
  | 0x18 => some .result
  | 0x20 => some .epoly
  | 0x21 => some .eseed
  | 0x22 => some .exorout
  | 0x23 => some .emask
  | 0x24 => some .ecfg
  | 0x28 => some .tcfg
  | 0x29 => some .tpoly
  | _ => none

/-- What a register reads as; reserved bits and the write-only `CMD` read 0 (R21, R25). -/
def State.readReg (s : State) : Reg → Word
  | .id => Config.idWord
  | .cap => Config.capWord
  | .cmd => 0#64
  | .status => s.status.toWord
  | .errcode => s.errcode.setWidth 64
  | .poly => s.params.poly
  | .width => s.params.width
  | .seed => s.params.seed
  | .xorout => s.params.xorout
  | .flags => flagsWord s.params.refin s.params.refout
  | .opa => s.opa
  | .seedovr => s.seedovr
  | .dlen => s.dlen
  | .start => s.start
  | .length => s.length
  | .result => s.result
  | .epoly => s.engine.epoly
  | .eseed => s.engine.eseed
  | .exorout => s.engine.exorout
  | .emask => s.engine.emask
  | .ecfg => s.engine.ecfg
  | .tcfg => tcfgWord s.tableInfo s.status.tv
  | .tpoly => s.tableInfo.tpoly

/-- A host write of a register other than a command: an `RW` register takes the value less its reserved bits, and a write to an `RO` register is ignored (R21, R62, R63). -/
def State.writeReg (s : State) (v : Word) : Reg → State
  | .id => s
  | .cap => s
  | .cmd => s
  | .status => s
  | .errcode => s
  | .poly => { s with params := { s.params with poly := v } }
  | .width => { s with params := { s.params with width := v } }
  | .seed => { s with params := { s.params with seed := v } }
  | .xorout => { s with params := { s.params with xorout := v } }
  | .flags => { s with params := { s.params with refin := v.getLsbD 0, refout := v.getLsbD 1 } }
  | .opa => { s with opa := v }
  | .seedovr => { s with seedovr := v }
  | .dlen => { s with dlen := v }
  | .start => { s with start := v }
  | .length => { s with length := v }
  | .result => s
  | .epoly => s
  | .eseed => s
  | .exorout => s
  | .emask => s
  | .ecfg => s
  | .tcfg => s
  | .tpoly => s

end Sys2Proof.Machine
end

