-- ==== Sys2Proof/Machine/Operands.lean ====
section
/-! DEFINITION. Where a command takes its operands from: the seed (42_engine_build_and_dispatch.md R131), the window (45_windowed_engine.md R161), the checks several commands share (41_table_generator.md R111, R121, R130, R132), and the loops of the engines. -/

namespace Sys2Proof.Machine

/-- `LSHIFT(w)`, the document's `crc_lshift` (00_scope.md R6, R152). -/
def lshiftOf (w : Nat) : Nat := if w < 8 then 8 - w else 0

/-- The checks of the generator's two arguments, in order (R111). -/
def widthPolyChecks (p : Params) : List (Bool × Err) :=
  [ (p.width == 0#64, .cfgWidthZero),
    (decide (Config.wmax < p.width.toNat), .cfgWidthBig),
    (!fits p.poly.toNat p.width.toNat, .cfgPolyWide) ]

/-- The checks every `BUILD` makes first, in order (R121). -/
def commonChecks (p : Params) : List (Bool × Err) :=
  widthPolyChecks p ++
    [ (!fits p.seed.toNat p.width.toNat, .cfgSeedWide),
      (!fits p.xorout.toNat p.width.toNat, .cfgXoroutWide) ]

/-- The checks a `BUILD` of a kind makes after the common ones (R122). -/
def kindChecks (k : Kind) (p : Params) : List (Bool × Err) :=
  match k with
  | .tlsb => [(!p.refin, .cfgConv)]
  | .tmsb => [(p.refin, .cfgConv), (decide (p.width.toNat < 8), .cfgTmsbNarrow)]
  | .gmsb => []
  | .glsb => []
  | .win => []

/-- The seed override is wider than the engine (R130, R132). -/
def State.seedovrWide (s : State) (so : Bool) : Bool :=
  so && !fits s.seedovr.toNat s.engine.width.toNat

/-- The checks of `CALC` before it computes, in order (R130). -/
def State.calcChecks (s : State) (so : Bool) : List (Bool × Err) :=
  [ (!s.status.ev, .illNoengine),
    (so && s.engine.kind.usesTable, .illSeedovr),
    (decide (Config.bufsz < s.dlen.toNat), .illDlen),
    (s.seedovrWide so, .cfgSeedovrWide) ]

/-- The checks of `CALCW` before the window is looked at, in order (R132). -/
def State.calcwChecks (s : State) (so : Bool) : List (Bool × Err) :=
  [ (!s.status.ev, .illNoengine),
    (decide (s.engine.kind ≠ .win), .illNotwin),
    (decide (Config.bufsz < s.dlen.toNat), .illDlen),
    (s.seedovrWide so, .cfgSeedovrWide) ]

/-- `seed0`: `SEEDOVR` when `SO = 1`, the engine's own seed otherwise (R131). -/
def State.seed0 (s : State) (so : Bool) : Nat :=
  if so then s.seedovr.toNat else s.engine.eseed.toNat

/-- `start_bit` of `CALCW`: `START` as two's complement (R35, R161). -/
def State.windowStart (s : State) : Int := s.start.toInt

/-- `length_bits` of `CALCW`: the remainder when `DL = 1`, `LENGTH` as two's complement otherwise (R36, R161). -/
def State.windowLength (s : State) (dl : Bool) : Int :=
  if dl then 8 * (s.dlen.toNat : Int) - s.start.toInt else s.length.toInt

/-- A `for k in 0 .. n-1` loop over the working register (00_scope.md R10): `body k` in ascending `k`. -/
def forLoop (body : Nat → Nat → Nat) (reg : Nat) : Nat → Nat
  | 0 => reg
  | k + 1 => body k (forLoop body reg k)

/-- A `repeat n times` loop over the working register (00_scope.md R10). -/
def rounds (round : Nat → Nat) (reg : Nat) : Nat → Nat
  | 0 => reg
  | k + 1 => round (rounds round reg k)

end Sys2Proof.Machine
end

