-- ==== Sys2Proof/Machine/BitReversalCommand.lean ====
section
/-! DEFINITION. The command `REV` (40_bit_reversal.md R103). -/

namespace Sys2Proof.Machine

/-- `REV <nbits>` (R103). -/
def execRev (nbits : Nat) (s : State) : Out :=
  s.guarded [(nbits == 0 || decide (Config.wmax < nbits), .illNbits)] fun s =>
    .next (s.setResult (reverseBits s.opa.toNat nbits)).complete

end Sys2Proof.Machine
end

