-- ==== Sys2Proof/Machine/TableGenerator.lean ====
section
/-! DEFINITION. The rounds of the two bit conventions, the lookup-table generator and the commands `GENTAB.M`, `GENTAB.L` (41_table_generator.md R110 to R116, 44_generic_engines.md R153). -/

namespace Sys2Proof.Machine

/-- `RoundMSB(reg, polyS, rw)`: shift left, XOR the polynomial if the bit leaving position `rw-1` was 1, mask (R153). -/
def roundMsb (polyS rw reg : Nat) : Nat :=
  ((reg <<< 1) ^^^ (if reg.testBit (rw - 1) then polyS else 0)) &&& mask rw

/-- One LSB-first round: shift right, XOR the reflected polynomial if the bit leaving position 0 was 1 (R113, R154). -/
def roundLsb (rpoly reg : Nat) : Nat :=
  (reg >>> 1) ^^^ (if reg.testBit 0 then rpoly else 0)

/-- `GenTableMSB(poly, w)` (R112). After the pass for `i = 2^(p-1)` the pair holds the running `crc` and the entries `t[0 .. 2i-1]`:
the pass applies one round to `crc` and appends `t[i+j] = crc ^ t[j]` for `j` in `0 .. i-1`. -/
def genMsbPasses (poly w : Nat) : Nat → Nat × List Nat
  | 0 => (1 <<< (w - 1), [0])
  | p + 1 =>
    let (crc, t) := genMsbPasses poly w p
    let crc := roundMsb poly w crc
    (crc, t ++ t.map (crc ^^^ ·))

/-- `GenTableMSB(poly, w)`: the eight passes, `i = 1, 2, 4, …, 128` (R112). -/
def genTableMsb (poly w : Nat) : List Nat := (genMsbPasses poly w 8).2

/-- `GenTableLSB(poly, w)` (R113). After the pass for `i` the pair holds the running `crc` and the entries at the multiples of `i`, ascending:
the pass applies one round to `crc` and puts `t[i+j] = crc ^ t[j]` after each `t[j]`, `j` a multiple of `2i`. -/
def genLsbPasses (rpoly : Nat) : Nat → Nat × List Nat
  | 0 => (1, [0])
  | p + 1 =>
    let (crc, t) := genLsbPasses rpoly p
    let crc := roundLsb rpoly crc
    (crc, t.flatMap fun x => [x, crc ^^^ x])

/-- `GenTableLSB(poly, w)`: the eight passes, `i = 0x80, 0x40, …, 1`, with the polynomial bit-reversed first (R113). -/
def genTableLsb (poly w : Nat) : List Nat := (genLsbPasses (reverseBits poly w) 8).2

/-- The table of a bit convention (R110). -/
def genTable (conv : Conv) (poly w : Nat) : List Nat :=
  match conv with
  | .msb => genTableMsb poly w
  | .lsb => genTableLsb poly w

/-- The table of the staged `POLY`, `WIDTH` is generated and described (R114, R115, R123). -/
def State.generate (conv : Conv) (s : State) : State :=
  s.writeTable conv s.params.poly s.params.width (genTable conv s.params.poly.toNat s.params.width.toNat)

/-- What `GENTAB.M` and `GENTAB.L` have in common (R114, R115). -/
def State.gentab (conv : Conv) (s : State) : Out :=
  s.guarded (widthPolyChecks s.params) fun s => .next (s.generate conv).invalidateEngine.complete

/-- `GENTAB.M` (R114). -/
def execGentabM (s : State) : Out := s.gentab .msb

/-- `GENTAB.L` (R115). -/
def execGentabL (s : State) : Out := s.gentab .lsb

end Sys2Proof.Machine
end

