-- ==== Sys2Proof/Machine/Build.lean ====
section
/-! DEFINITION. Engine construction: the six `BUILD` commands (42_engine_build_and_dispatch.md R121 to R129). -/

namespace Sys2Proof.Machine

/-- The latched engine registers that a successful `BUILD` of a kind writes, from the staged Parameter Set (R123). -/
def Params.latch (p : Params) (k : Kind) : Engine where
  epoly := p.poly
  eseed := p.seed
  exorout := p.xorout
  emask := BitVec.ofNat 64 (mask p.width.toNat)
  width := p.width.setWidth 8
  refin := p.refin
  refout := p.refout
  rr := p.refin ^^ p.refout
  kind := k
  lshift := BitVec.ofNat 3 (lshiftOf p.width.toNat)

/-- `REG.STATUS.EV <- 1` beside the latched registers (R123). -/
def State.latchEngine (k : Kind) (s : State) : State :=
  { s with engine := s.params.latch k, status := { s.status with ev := true } }

/-- The table that a `BUILD` of a kind generates, if the kind uses one (R123). -/
def State.buildTable (k : Kind) (s : State) : State :=
  match k with
  | .tlsb => s.generate .lsb
  | .tmsb => s.generate .msb
  | .gmsb => s
  | .glsb => s
  | .win => s

/-- Everything a successful `BUILD` of a kind writes (R123). -/
def State.construct (k : Kind) (s : State) : State := ((s.latchEngine k).buildTable k).complete

/-- `BUILD.<kind>`: the common checks, the kind's checks, then all the writes at once (R121, R122, R123). -/
def State.build (k : Kind) (s : State) : Out :=
  s.guarded (commonChecks s.params ++ kindChecks k s.params) fun s => .next (s.construct k)

/-- The kind that `BUILD.AUTO` chooses (R129). -/
def autoKind (p : Params) : Kind :=
  if p.refin = p.refout then
    if p.refin then .tlsb
    else if 8 ≤ p.width.toNat then .tmsb
    else .gmsb
  else .gmsb

/-- `BUILD.TLSB` (R124). -/
def execBuildTlsb (s : State) : Out := s.build .tlsb

/-- `BUILD.TMSB` (R125). -/
def execBuildTmsb (s : State) : Out := s.build .tmsb

/-- `BUILD.GMSB` (R126). -/
def execBuildGmsb (s : State) : Out := s.build .gmsb

/-- `BUILD.GLSB` (R127). -/
def execBuildGlsb (s : State) : Out := s.build .glsb

/-- `BUILD.WIN` (R128). -/
def execBuildWin (s : State) : Out := s.build .win

/-- `BUILD.AUTO`: the common checks, then all the writes for the chosen kind (R129). -/
def execBuildAuto (s : State) : Out :=
  s.guarded (commonChecks s.params) fun s => .next (s.construct (autoKind s.params))

end Sys2Proof.Machine
end

