-- ==== Sys2Proof/Machine/TableEngines.lean ====
section
/-! DEFINITION. The table-driven engines, kinds TLSB and TMSB (43_table_engines.md R140 to R145). `rd k` is `data[k]`, `tab i` is `TABLE[i]`. -/

namespace Sys2Proof.Machine

/-- One byte of the LSB-first table engine (R141). -/
def stepTlsb (e : Engine) (tab : Nat → Nat) (v : Byte) (reg : Nat) : Nat :=
  ((reg >>> 8) ^^^ tab ((reg &&& 0xFF) ^^^ v.toNat)) &&& e.emask.toNat

/-- One byte of the MSB-first table engine; its shift count needs `8 ≤ w` (R143, R144). -/
def stepTmsb (e : Engine) (tab : Nat → Nat) (v : Byte) (reg : Nat) : Nat :=
  ((reg <<< 8) ^^^ tab ((reg >>> (e.width.toNat - 8)) ^^^ v.toNat)) &&& e.emask.toNat

/-- The final steps of both table engines: the reversal when `RR = 1`, then the XOR-out (R145). -/
def finishTable (e : Engine) (reg : Nat) : Nat :=
  (if e.rr then reverseBits reg e.width.toNat else reg) ^^^ e.exorout.toNat

/-- `CalcTLSB(data, n)` (R141). -/
def calcTlsb (e : Engine) (tab : Nat → Nat) (rd : Nat → Byte) (n : Nat) : Nat :=
  finishTable e (forLoop (fun k => stepTlsb e tab (rd k)) (reverseBits e.eseed.toNat e.width.toNat) n)

/-- `CalcTMSB(data, n)` (R143). -/
def calcTmsb (e : Engine) (tab : Nat → Nat) (rd : Nat → Byte) (n : Nat) : Nat :=
  finishTable e (forLoop (fun k => stepTmsb e tab (rd k)) e.eseed.toNat n)

end Sys2Proof.Machine
end

