-- ==== Sys2Proof/Machine/GenericEngines.lean ====
section
/-! DEFINITION. The bit-by-bit generic engines, kinds GMSB and GLSB (44_generic_engines.md R150 to R154). `rd k` is `data[k]`. -/

namespace Sys2Proof.Machine

/-- `rw`, the width of the working register of the MSB-first bit-by-bit engines (R151, R152). -/
def Engine.workWidth (e : Engine) : Nat := e.width.toNat + e.lshift.toNat

/-- `polyS`, the polynomial aligned to the top of the working register (R151). -/
def Engine.polyS (e : Engine) : Nat := e.epoly.toNat <<< e.lshift.toNat

/-- A byte is XORed into the top of the working register and a number of rounds follows (R151, R164). -/
def absorbMsb (e : Engine) (bw : Nat) (v : Byte) (reg : Nat) : Nat :=
  rounds (roundMsb e.polyS e.workWidth) (reg ^^^ (v.toNat <<< (e.workWidth - 8))) bw

/-- The optional input reflection of the MSB-first bit-by-bit engines (R151, R164). -/
def Engine.reflectIn (e : Engine) (v : Byte) : Byte := if e.refin then brev v else v

/-- The final steps of the MSB-first bit-by-bit engines, after the alignment shift is undone (R151, R168). -/
def finishMsb (e : Engine) (reg : Nat) : Nat :=
  (if e.refout then reverseBits reg e.width.toNat else reg) ^^^ e.exorout.toNat

/-- `CalcGMSB(data, n, seed0)` (R151). -/
def calcGmsb (e : Engine) (rd : Nat → Byte) (n seed0 : Nat) : Nat :=
  finishMsb e
    (forLoop (fun k => absorbMsb e 8 (e.reflectIn (rd k))) (seed0 <<< e.lshift.toNat) n >>> e.lshift.toNat)

/-- One byte of the LSB-first generic engine: a byte enters unchanged when `REFIN = 1` and reversed when `REFIN = 0` (R154, R155). -/
def absorbLsb (e : Engine) (v : Byte) (reg : Nat) : Nat :=
  rounds (roundLsb (reverseBits e.epoly.toNat e.width.toNat))
    (reg ^^^ (if e.refin then v else brev v).toNat) 8

/-- The final steps of the LSB-first generic engine: back to normal form when the output is not reflected (R154). -/
def finishLsb (e : Engine) (reg : Nat) : Nat :=
  (if e.refout then reg else reverseBits reg e.width.toNat) ^^^ e.exorout.toNat

/-- `CalcGLSB(data, n, seed0)` (R154). -/
def calcGlsb (e : Engine) (rd : Nat → Byte) (n seed0 : Nat) : Nat :=
  finishLsb e (forLoop (fun k => absorbLsb e (rd k)) (reverseBits seed0 e.width.toNat) n)

end Sys2Proof.Machine
end

