-- ==== Sys2Proof/Machine/WindowEngine.lean ====
section
/-! DEFINITION. The windowed engine, kind WIN (45_windowed_engine.md R160 to R171). `rd b` is `data[b]`; a window is its first bit position and its length. -/

namespace Sys2Proof.Machine

/-- The range checks, in order, on unbounded integers (R162). -/
def windowChecks (n : Nat) (start length : Int) : List (Bool × Err) :=
  [ (decide (start < 0), .rngStartNeg),
    (decide (8 * (n : Int) ≤ start), .rngStartHigh),
    (decide (length < 0), .rngLenNeg),
    (decide (8 * (n : Int) - start < length), .rngEndHigh) ]

/-- The index of the byte holding the first window bit (R163). -/
def winFirst (start : Nat) : Nat := start / 8

/-- The bits of the first affected byte before the window (R163). -/
def winSoff (start : Nat) : Nat := start % 8

/-- The index of the byte holding the last window bit, for a window of at least one bit (R163). -/
def winLast (start length : Nat) : Nat := (start + length - 1) / 8

/-- The bits of the last affected byte, from its most significant bit, up to the window's end (R163). -/
def winKeep (start length : Nat) : Nat := (start + length - 1) % 8 + 1

/-- `end_mask`: the `keep` most significant bits of a byte (R163). -/
def endMask (keep : Nat) : Byte := 0xFF#8 <<< (8 - keep)

/-- The byte `b` of the window made ready: mask, then shift, then the optional reflection (R164). -/
def winByte (e : Engine) (start length b : Nat) (v : Byte) : Byte :=
  let v := if b = winLast start length then v &&& endMask (winKeep start length) else v
  let v := if b = winFirst start then v <<< winSoff start else v
  e.reflectIn v

/-- `block_width`: reduced for the first affected byte only (R165). -/
def winRounds (start b : Nat) : Nat := if b = winFirst start then 8 - winSoff start else 8

/-- The loop over the affected bytes `first .. last`; an empty window affects none (R164, R167). -/
def windowLoop (e : Engine) (rd : Nat → Byte) (start length reg : Nat) : Nat :=
  if length = 0 then reg
  else
    forLoop
      (fun k =>
        let b := winFirst start + k
        absorbMsb e (winRounds start b) (winByte e start length b (rd b)))
      reg (winLast start length + 1 - winFirst start)

/-- `CalcWIN(data, n, start, length, seed0)`: the range checks, the loop, the residue assertion of R166, the final steps (R168). -/
def calcWin (e : Engine) (rd : Nat → Byte) (n : Nat) (start length : Int) (seed0 : Nat) : Except Err Nat :=
  match firstFailing (windowChecks n start length) with
  | some err => .error err
  | none =>
    let reg := windowLoop e rd start.toNat length.toNat (seed0 <<< e.lshift.toNat)
    if reg &&& mask e.lshift.toNat ≠ 0 then .error .intResidue
    else .ok (finishMsb e (reg >>> e.lshift.toNat))

end Sys2Proof.Machine
end

