-- ==== Sys2Proof/Machine/Calculate.lean ====
section
/-! DEFINITION. The calculate front end: `CALC` and `CALCW` (42_engine_build_and_dispatch.md R130 to R132). -/

namespace Sys2Proof.Machine

/-- The engine's rule would shift by a negative count, which has no meaning: kind TMSB with `w < 8`, kinds GMSB and WIN with `rw < 8` (R10, R144; log 8). -/
def Engine.shiftsNegative (e : Engine) : Bool :=
  match e.kind with
  | .tlsb => false
  | .tmsb => decide (e.width.toNat < 8)
  | .gmsb => decide (e.workWidth < 8)
  | .glsb => false
  | .win => decide (e.workWidth < 8)

/-- The built engine over the whole byte sequence `data[0 .. DLEN-1]` (R130). -/
def State.runEngine (s : State) (seed0 : Nat) : Except Err Nat :=
  let e := s.engine
  let n := s.dlen.toNat
  match e.kind with
  | .tlsb => .ok (calcTlsb e (fun i => (s.tableEntry i).toNat) s.dataByte n)
  | .tmsb => .ok (calcTmsb e (fun i => (s.tableEntry i).toNat) s.dataByte n)
  | .gmsb => .ok (calcGmsb e s.dataByte n seed0)
  | .glsb => .ok (calcGlsb e s.dataByte n seed0)
  | .win => calcWin e s.dataByte n 0 (8 * (n : Int)) seed0

/-- A calculation on the built engine, or the stop on an engine no rule gives a meaning to. -/
def State.calculate (s : State) (r : Except Err Nat) : Out :=
  if s.engine.shiftsNegative then .fault .negativeShift else .next (s.finishWith r)

/-- `CALC`, `CALC.SO` (R130). -/
def execCalc (so : Bool) (s : State) : Out :=
  s.guarded (s.calcChecks so) fun s => s.calculate (s.runEngine (s.seed0 so))

/-- `CALCW`, `CALCW.SO`, `CALCW.DL`, `CALCW.SO.DL` (R132). -/
def execCalcw (so dl : Bool) (s : State) : Out :=
  s.guarded (s.calcwChecks so) fun s =>
    s.calculate (calcWin s.engine s.dataByte s.dlen.toNat s.windowStart (s.windowLength dl) (s.seed0 so))

end Sys2Proof.Machine
end

