-- ==== Sys2Proof/Machine/SystemCommands.lean ====
section
/-! DEFINITION. The system commands `CLRERR` and `SRST` (46_system_commands.md R180, R181). -/

namespace Sys2Proof.Machine

/-- `REG.STATUS.ESTK <- 0` (R180). -/
def State.clearSticky (s : State) : State :=
  { s with status := { s.status with estk := false } }

/-- `CLRERR` (R180). -/
def execClrerr (s : State) : Out := .next s.clearSticky.complete

/-- `SRST`: every register to its reset value, without `Complete()` (R181). -/
def execSrst (s : State) : Out := .next s.toReset

end Sys2Proof.Machine
end

