-- ==== Sys2Proof/Machine/Dispatch.lean ====
section
/-! DEFINITION. The meaning of every command, one arm per constructor of `Instr` (30_encoding.md R82). -/

namespace Sys2Proof.Machine

/-- The effect of a well-decoded command as one atomic step (R7, R25). -/
def exec (i : Instr) (s : State) : Host.Outcome State Fault Refusal :=
  match i with
  | .rev nbits => Sys2Proof.Machine.execRev nbits s
  | .gentabM => Sys2Proof.Machine.execGentabM s
  | .gentabL => Sys2Proof.Machine.execGentabL s
  | .buildTlsb => Sys2Proof.Machine.execBuildTlsb s
  | .buildTmsb => Sys2Proof.Machine.execBuildTmsb s
  | .buildGmsb => Sys2Proof.Machine.execBuildGmsb s
  | .buildGlsb => Sys2Proof.Machine.execBuildGlsb s
  | .buildWin => Sys2Proof.Machine.execBuildWin s
  | .buildAuto => Sys2Proof.Machine.execBuildAuto s
  | .calcBuffer so => Sys2Proof.Machine.execCalc so s
  | .calcWindow so dl => Sys2Proof.Machine.execCalcw so dl s
  | .clrerr => Sys2Proof.Machine.execClrerr s
  | .srst => Sys2Proof.Machine.execSrst s

end Sys2Proof.Machine
end

