-- ==== Sys2Proof/Machine/Port.lean ====
section
/-! DEFINITION. The host port (20_memory.md R60 to R65): reads, and the writes that are no command. -/

namespace Sys2Proof.Machine

/-- The value a host read returns; an access without a meaning returns 0 (R61, R63, R64, R65). -/
def State.portRead (s : State) (space : Space) (addr : Nat) : Word :=
  match space with
  | .reg =>
    match Reg.ofNumber addr with
    | some r => s.readReg r
    | none => 0#64
  | .data => if addr < Config.bufsz then (s.dataByte addr).setWidth 64 else 0#64
  | .tab => if addr < Config.tabn then s.tableEntry addr else 0#64

/-- The effect of a host write that is no command; an access without a meaning has no effect (R61, R63, R65). -/
def State.portWrite (s : State) (space : Space) (addr : Nat) (v : Word) : State :=
  match space with
  | .reg =>
    match Reg.ofNumber addr with
    | some r => s.writeReg v r
    | none => s
  | .data => if addr < Config.bufsz then s.writeData addr (v.setWidth 8) else s
  | .tab => s

/-- The value of an input that issues a command: a host write to `CMD`, register number 2 (R25, R61). -/
def Input.commandValue : Input → Option Word
  | .write .reg addr v => if addr = 2 then some v else none
  | .write .data _ _ => none
  | .write .tab _ _ => none
  | .read _ _ => none
  | .reset => none

/-- The input is consumed: the host's script goes on (R13; log 1). -/
def State.advance (rest : List Input) (s : State) : State :=
  { s with script := rest }

/-- The host observes a value (R13; log 1). -/
def State.observe (v : Word) (s : State) : State :=
  { s with reads := s.reads ++ [v] }

/-- The effect of an input that issues no command. -/
def State.hostOperation (i : Input) (s : State) : State :=
  match i with
  | .write space addr v => s.portWrite space addr v
  | .read space addr => s.observe (s.portRead space addr)
  | .reset => s.toReset

end Sys2Proof.Machine
end

