-- ==== Sys2Proof/Machine/Step.lean ====
section
/-! DEFINITION. One step: the next input of the host's script, a command from the write of `CMD` to its completion included (00_scope.md R7, R13). -/

namespace Sys2Proof.Machine

/-- A value is written to `CMD`: it is decoded and executed, or raises the decode error (R25, R86). -/
def runCommand (c : Word) (s : State) : Host.Outcome State Fault Refusal :=
  match decode c with
  | .ok i => exec i s
  | .error e => .next (s.raiseError (Err.ofDecode e))

/-- One step. With no input left the block is idle and keeps all its state (R13, R200, R211; log 2). -/
def step (s : State) : Host.Outcome State Fault Refusal :=
  match s.script with
  | [] => .next s
  | i :: rest =>
    match i.commandValue with
    | some c => runCommand c (s.advance rest)
    | none => .next ((s.advance rest).hostOperation i)

/-- The state whose next input writes a command word of `nbits` bits, all bits above them zero, to `CMD` (R25, R80; log 1). -/
def State.withFetchWord (s : State) (nbits w : Nat) : State :=
  { s with script := .write .reg 2 (BitVec.ofNat 64 (w % 2 ^ nbits)) :: s.script }

end Sys2Proof.Machine
end

