-- ==== Sys2Proof/Safety.lean ====
section
/-! DEFINITION. What a sound state of the block is, and the words claims use: the invariant, the Parameter Set's own invariant, the errors of each command, the independent descriptions of a table entry and of a window's CRC. -/

namespace Sys2Proof.Machine

/-! ### Sound states -/

/-- The Parameter Set invariant "`seed`, `xor_out`, and `polynomial` fit within `width` bits; `width ≥ 1`", with `WMAX` (R26, R121). -/
structure Params.Legal (p : Params) : Prop where
  width_pos : 1 ≤ p.width.toNat
  width_le : p.width.toNat ≤ Config.wmax
  poly_lt : p.poly.toNat < 2 ^ p.width.toNat
  seed_lt : p.seed.toNat < 2 ^ p.width.toNat
  xorout_lt : p.xorout.toNat < 2 ^ p.width.toNat

/-- What every `BUILD` leaves in the latched engine registers (R40, R41, R122, R123). -/
structure Engine.WellBuilt (e : Engine) : Prop where
  width_pos : 1 ≤ e.width.toNat
  width_le : e.width.toNat ≤ Config.wmax
  epoly_lt : e.epoly.toNat < 2 ^ e.width.toNat
  eseed_lt : e.eseed.toNat < 2 ^ e.width.toNat
  exorout_lt : e.exorout.toNat < 2 ^ e.width.toNat
  emask_eq : e.emask.toNat = mask e.width.toNat
  rr_eq : e.rr = (e.refin ^^ e.refout)
  lshift_eq : e.lshift.toNat = lshiftOf e.width.toNat
  tlsb_conv : e.kind = .tlsb → e.refin = true
  tmsb_conv : e.kind = .tmsb → e.refin = false ∧ 8 ≤ e.width.toNat

/-- The convention of the table that a table kind uses (R140). -/
def Kind.conv : Kind → Conv
  | .tlsb => .lsb
  | .tmsb => .msb
  | .gmsb => .msb
  | .glsb => .lsb
  | .win => .msb

/-- A sound state: what holds after reset and what every step keeps. -/
structure State.Inv (s : State) : Prop where
  /-- `DATA` is in canonical form. -/
  data_wf : Memory.wf s.data
  /-- While `EV = 1` the latched registers are those of a legal build (R40, R41). -/
  engine_ok : s.status.ev = true → s.engine.WellBuilt
  /-- A built table-driven engine has its own table (R116, R140). -/
  engine_table : s.status.ev = true → s.engine.kind.usesTable = true →
    s.status.tv = true ∧ s.tableInfo = ⟨s.engine.width, s.engine.kind.conv, s.engine.epoly⟩
  /-- While `TV = 1` the table is the one that `TCFG` and `TPOLY` describe (R42, R43). -/
  table_ok : s.status.tv = true →
    1 ≤ s.tableInfo.width.toNat ∧ s.tableInfo.width.toNat ≤ Config.wmax ∧
    s.tableInfo.tpoly.toNat < 2 ^ s.tableInfo.width.toNat ∧
    s.table = (genTable s.tableInfo.conv s.tableInfo.tpoly.toNat s.tableInfo.width.toNat).map (BitVec.ofNat 64)
  /-- While `TV = 0` nothing has been generated (R213). -/
  table_none : s.status.tv = false → s.table = []
  /-- Without a valid result `RESULT` is 0 (R37). -/
  result_zero : s.status.rv = false → s.result = 0#64
  /-- `DONE` and `ERR` are never both 1 (R38). -/
  done_err : s.status.done = true → s.status.err = false
  /-- An error that stands is a sticky error (R38, R190). -/
  err_sticky : s.status.err = true → s.status.estk = true
  /-- `ERRCODE` is the code of an error while `ERR = 1` (R39). -/
  errcode_err : s.status.err = true → ∃ e : Err, s.errcode = e.code
  /-- `ERRCODE` is 0 while `ERR = 0` (R39). -/
  errcode_ok : s.status.err = false → s.errcode = 0#8

/-! ### The commands by shape -/

/-- The command that builds a kind by name (R82). -/
def Kind.build : Kind → Instr
  | .tlsb => .buildTlsb
  | .tmsb => .buildTmsb
  | .gmsb => .buildGmsb
  | .glsb => .buildGlsb
  | .win => .buildWin

/-- The command that generates the table of a convention (R82). -/
def Conv.gentab : Conv → Instr
  | .msb => .gentabM
  | .lsb => .gentabL

end Sys2Proof.Machine

namespace Sys2Proof

open Sys2Proof.Machine

/-- The six `BUILD` commands. -/
def Instr.isBuild : Instr → Bool
  | .buildTlsb => true
  | .buildTmsb => true
  | .buildGmsb => true
  | .buildGlsb => true
  | .buildWin => true
  | .buildAuto => true
  | .rev _ => false
  | .gentabM => false
  | .gentabL => false
  | .calcBuffer _ => false
  | .calcWindow _ _ => false
  | .clrerr => false
  | .srst => false

/-- The two `GENTAB` commands. -/
def Instr.isGentab : Instr → Bool
  | .gentabM => true
  | .gentabL => true
  | .buildTlsb => false
  | .buildTmsb => false
  | .buildGmsb => false
  | .buildGlsb => false
  | .buildWin => false
  | .buildAuto => false
  | .rev _ => false
  | .calcBuffer _ => false
  | .calcWindow _ _ => false
  | .clrerr => false
  | .srst => false

/-- The five common configuration errors of a `BUILD` (R202). -/
def commonErrors : List Err :=
  [.cfgWidthZero, .cfgWidthBig, .cfgPolyWide, .cfgSeedWide, .cfgXoroutWide]

/-- R202's cross table: the errors each command can raise. -/
def Instr.errors : Instr → List Err
  | .rev _ => [.illNbits]
  | .gentabM => [.cfgWidthZero, .cfgWidthBig, .cfgPolyWide]
  | .gentabL => [.cfgWidthZero, .cfgWidthBig, .cfgPolyWide]
  | .buildTlsb => commonErrors ++ [.cfgConv]
  | .buildTmsb => commonErrors ++ [.cfgConv, .cfgTmsbNarrow]
  | .buildGmsb => commonErrors
  | .buildGlsb => commonErrors
  | .buildWin => commonErrors
  | .buildAuto => commonErrors
  | .calcBuffer _ => [.illNoengine, .illSeedovr, .illDlen, .cfgSeedovrWide, .rngStartHigh, .intResidue]
  | .calcWindow _ dl =>
    [.illNoengine, .illNotwin, .illDlen, .cfgSeedovrWide, .rngStartNeg, .rngStartHigh]
      ++ (if dl then [] else [.rngLenNeg, .rngEndHigh]) ++ [.intResidue]
  | .clrerr => []
  | .srst => []

end Sys2Proof

namespace Sys2Proof.Machine

/-! ### Independent descriptions -/

/-- The closed form of an MSB-first table entry: eight rounds on the index itself (R118). -/
def directEntryMsb (poly w i : Nat) : Nat :=
  rounds (roundMsb (poly <<< lshiftOf w) (w + lshiftOf w)) (i <<< (w + lshiftOf w - 8)) 8 >>> lshiftOf w

/-- The closed form of an LSB-first table entry: eight rounds on the index itself (R118). -/
def directEntryLsb (poly w i : Nat) : Nat :=
  rounds (roundLsb (reverseBits poly w)) i 8

/-- The closed form of the entry of a convention's table (R118). -/
def directEntry (conv : Conv) (poly w i : Nat) : Nat :=
  match conv with
  | .msb => directEntryMsb poly w i
  | .lsb => directEntryLsb poly w i

/-- Buffer bit `p`, counted from the most significant bit of `data[0]` (R66, R160). -/
def bufferBit (rd : Nat → Byte) (p : Nat) : Bool := (rd (p / 8)).getLsbD (7 - p % 8)

/-- One bit of the bit-serial CRC: `r <- ((r << 1) & mask(w)) ^ (poly if (r[w-1] ^ bit) == 1 else 0)` (R170). -/
def bitCrcStep (poly w r : Nat) (bit : Bool) : Nat :=
  ((r <<< 1) &&& mask w) ^^^ (if r.testBit (w - 1) ^^ bit then poly else 0)

/-- `BitCRC(r, bits)`, first bit first (R170). -/
def bitCrc (poly w r : Nat) (bits : List Bool) : Nat := bits.foldl (bitCrcStep poly w) r

/-- The window's bits, then the zero bits up to the end of its last byte (R170); no bit at all for an empty window (R167). -/
def paddedWindow (rd : Nat → Byte) (start length : Nat) : List Bool :=
  if length = 0 then []
  else (List.range length).map (fun j => bufferBit rd (start + j))
    ++ List.replicate (8 - winKeep start length) false

/-- Buffer bit `p`, and 0 from the end of the window on: the bit that `end_mask` leaves (R163). -/
def windowBit (rd : Nat → Byte) (start length p : Nat) : Bool := decide (p < start + length) && bufferBit rd p

/-- The eight bits of byte `b` of a window in the order in which reflected input takes them, least significant bit first (R164, R171).
The first affected byte has been aligned to its most significant bit, so its lowest `soff` bits are 0. -/
def reflectedByte (rd : Nat → Byte) (start length b : Nat) : List Bool :=
  let soff := if b = start / 8 then start % 8 else 0
  (List.range 8).map fun j => decide (soff ≤ j) && windowBit rd start length (8 * b + 7 + soff - j)

/-- The bits of the first list XORed into the first bits of the second. -/
def mixFront (pending bits : List Bool) : List Bool :=
  List.zipWith xor (pending ++ List.replicate (bits.length - pending.length) false) bits

/-- A list of bits as a number, the first bit the most significant. -/
def bitsValue (bits : List Bool) : Nat := bits.foldl (fun v b => 2 * v + b.toNat) 0

/-- The register after a window with reflected input, in normal form (R171): the first byte is clocked for `8 - soff` bits;
its last `soff` bits are mixed into the bits that follow, or stand at the top of the register when no byte follows. -/
def reflectedRegister (poly w seed0 : Nat) (rd : Nat → Byte) (start length : Nat) : Nat :=
  if length = 0 then seed0
  else
    let first := start / 8
    let soff := start % 8
    let last := (start + length - 1) / 8
    let head := reflectedByte rd start length first
    let reg := bitCrc poly w seed0 (head.take (8 - soff))
    let pending := head.drop (8 - soff)
    if last = first then reg ^^^ (bitsValue pending <<< w >>> soff)
    else
      bitCrc poly w reg
        (mixFront pending ((List.range (last - first)).flatMap fun k => reflectedByte rd start length (first + 1 + k)))

/-- The situation of R166 in which the residue assertion fails: reflected input, a window inside one byte that starts more than `w` bits into it, and a 1 among its first `min(soff - w, length)` bits. -/
def residueLeft (e : Engine) (rd : Nat → Byte) (start length : Nat) : Prop :=
  e.refin = true ∧ 0 < length ∧ winFirst start = winLast start length ∧ e.width.toNat < winSoff start ∧
    ∃ j, j < min (winSoff start - e.width.toNat) length ∧ bufferBit rd (start + j) = true

/-- The seed override of a call is absent, or fits the engine (R131). -/
def State.SeedFits (s : State) (so : Bool) : Prop :=
  so = true → s.seedovr.toNat < 2 ^ s.engine.width.toNat

/-- The window of a call lies in the buffer (R162). -/
def State.WindowInRange (s : State) (dl : Bool) : Prop :=
  0 ≤ s.windowStart ∧ s.windowStart < 8 * (s.dlen.toNat : Int) ∧
    0 ≤ s.windowLength dl ∧ s.windowLength dl ≤ 8 * (s.dlen.toNat : Int) - s.windowStart

/-- A register holds a command's result and the command has completed; nothing else has changed (R136, R189). -/
def State.ResultOnly (s t : State) (r : Nat) : Prop :=
  t = { s with
    result := BitVec.ofNat 64 r
    errcode := 0#8
    status := { s.status with rv := true, done := true, err := false } }

/-- An error has been entered and nothing else has changed (R190). -/
def State.ErrorOnly (s t : State) (e : Err) : Prop :=
  t = { s with
    result := 0#64
    errcode := e.code
    status := { s.status with done := false, err := true, estk := true, rv := false } }

end Sys2Proof.Machine
end

