-- ==== Sys2Proof/Certificates/Slice0/Obligations.lean ====
section
/-! DEFINITION. The statements for the provers, from the numbered rules of the spec. -/

open Sys2Proof Sys2Proof.Machine

/-! ### The command word -/

/-- Command words written out from R82, R83 and R88 decode to the commands they stand for. -/
def Obligations.CommandWordsOfTheTableDecode : Prop :=
  decode 0x00002001#64 = .ok (.rev 32) ∧ decode 0x00000001#64 = .ok (.rev 0) ∧
  decode 0x0000FF01#64 = .ok (.rev 255) ∧
  decode 0x00000002#64 = .ok .gentabM ∧ decode 0x00000003#64 = .ok .gentabL ∧
  decode 0x00000010#64 = .ok .buildTlsb ∧ decode 0x00000011#64 = .ok .buildTmsb ∧
  decode 0x00000012#64 = .ok .buildGmsb ∧ decode 0x00000013#64 = .ok .buildGlsb ∧
  decode 0x00000014#64 = .ok .buildWin ∧ decode 0x0000001F#64 = .ok .buildAuto ∧
  decode 0x00000020#64 = .ok (.calcBuffer false) ∧ decode 0x00010020#64 = .ok (.calcBuffer true) ∧
  decode 0x00000021#64 = .ok (.calcWindow false false) ∧ decode 0x00010021#64 = .ok (.calcWindow true false) ∧
  decode 0x00020021#64 = .ok (.calcWindow false true) ∧ decode 0x00030021#64 = .ok (.calcWindow true true) ∧
  decode 0x00000030#64 = .ok .clrerr ∧ decode 0x0000003F#64 = .ok .srst

/-- A value written to `CMD` is a command exactly when it is that command's encoding: no operand bit is dropped, and each command has one word (R81, R83, R86). -/
def Obligations.DecodeAndEncodeAgree : Prop :=
  ∀ (c : Word) (i : Instr), decode c = .ok i ↔ i.wellFormed = true ∧ encode i = c

/-- R86 on the machine, in the words of its prose: an undefined opcode is `ILL_OP` whatever the other bits are;
a defined opcode with a non-zero reserved bit, a non-zero `ARG` outside `REV`, `SO = 1` outside `CALC`, `CALCW`, `DL = 1` outside `CALCW`, or non-zero `CMD[63:32]` is `ILL_FIELD`;
any other value is a command, and its rule is executed. -/
def Obligations.IllegalCommandWordsAreRefusedInOrder : Prop :=
  ∀ (s : State) (c : Word) (rest : List Input), s.script = .write .reg 2 c :: rest →
    let op := c.toNat % 256
    let defined := op ∈ [0x01, 0x02, 0x03, 0x10, 0x11, 0x12, 0x13, 0x14, 0x1F, 0x20, 0x21, 0x30, 0x3F]
    let badField := c.toNat / 2 ^ 18 ≠ 0 ∨ (c.toNat / 2 ^ 8 % 256 ≠ 0 ∧ op ≠ 0x01) ∨
      (c.getLsbD 16 = true ∧ op ≠ 0x20 ∧ op ≠ 0x21) ∨ (c.getLsbD 17 = true ∧ op ≠ 0x21)
    (¬ defined → ∃ t, step s = .next t ∧ (s.advance rest).ErrorOnly t .illOp) ∧
    (defined → badField → ∃ t, step s = .next t ∧ (s.advance rest).ErrorOnly t .illField) ∧
    (defined → ¬ badField → ∃ i, decode c = .ok i ∧ step s = exec i (s.advance rest))

/-! ### One step -/

/-- A step whose input writes to `CMD` a value that decodes to `i` is `exec i`, at the state whose script has gone on by that one input (R25; the script is the model's, log 1).
A read of `CMD` returns 0. -/
def Obligations.StepRunsTheDecodedCommand : Prop :=
  ∀ (s : State) (c : Word) (i : Instr) (rest : List Input),
    (s.script = .write .reg 2 c :: rest → decode c = .ok i → step s = exec i { s with script := rest }) ∧
    s.portRead .reg 2 = 0#64

/-- `withFetchWord` puts a command word where the next step takes its input, and changes nothing else (log 1). -/
def Obligations.PlacedCommandWordRunsNext : Prop :=
  ∀ (s : State) (nbits w : Nat) (i : Instr), decodeTableWord nbits w = some i →
    step (s.withFetchWord nbits w) = exec i s

/-- A host read returns the element, and its only effect is on the host's own list of observed values: reads have no side effect (R61, R64, R68).
Which state a register number reads is said by `RegisterNumbersSelectTheNamedState` and `FieldRegistersReadAsLaidOut`. -/
def Obligations.HostReadOnlyObserves : Prop :=
  ∀ (s : State) (space : Space) (addr : Nat) (rest : List Input), s.script = .read space addr :: rest →
    (∃ t, step s = .next t ∧ t = { s with script := rest, reads := s.reads ++ [s.portRead space addr] }) ∧
    (∀ i, i < 256 → s.portRead .tab i = s.tableEntry i) ∧
    (∀ a, a < 4096 → s.portRead .data a = (s.dataByte a).setWidth 64)

/-- R63: an access the map gives no meaning is ignored, and a read of this kind returns 0; the register numbers are R60's, `0x00 .. 0x3F`.
A write of a value of 256 or more to `DATA` stores it modulo 256. -/
def Obligations.MeaninglessAccessesAreIgnored : Prop :=
  ∀ (s : State) (v : Word) (n : Nat) (rest : List Input),
    let rw := [0x08, 0x09, 0x0A, 0x0B, 0x0C, 0x0D, 0x0E, 0x10, 0x11, 0x12]
    let ro := [0x00, 0x01, 0x03, 0x04, 0x18, 0x20, 0x21, 0x22, 0x23, 0x24, 0x28, 0x29]
    (n < 0x40 → n ∉ rw → n ≠ 2 → s.script = .write .reg n v :: rest → step s = .next { s with script := rest }) ∧
    (n < 0x40 → n ∉ rw → n ∉ ro → s.portRead .reg n = 0#64) ∧
    (4096 ≤ n → s.script = .write .data n v :: rest → step s = .next { s with script := rest }) ∧
    (4096 ≤ n → s.portRead .data n = 0#64) ∧
    (s.script = .write .tab n v :: rest → step s = .next { s with script := rest }) ∧
    (256 ≤ n → s.portRead .tab n = 0#64) ∧
    (n < 4096 → s.script = .write .data n v :: rest →
      ∃ t, step s = .next t ∧ (t.portRead .data n).toNat = v.toNat % 256)

/-- THE MODEL'S CHOICE (log 11): a host operation on a register number of `0x40` or more, which R60 and R69 do not have, is one on an unimplemented register: a write is ignored and a read returns 0. -/
def Obligations.NumbersAboveTheMapAreUnimplemented : Prop :=
  ∀ (s : State) (v : Word) (n : Nat) (rest : List Input), 0x40 ≤ n →
    (s.script = .write .reg n v :: rest → step s = .next { s with script := rest }) ∧
    (s.script = .read .reg n :: rest → step s = .next { s with script := rest, reads := s.reads ++ [0#64] })

/-- An `RW` register reads back the value last written, less its reserved bits; every other register, the table and `DATA` read as before, and no error is recorded (R21, R62, R71).
Register numbers of `0x40` or more read 0 before and after (log 11). -/
def Obligations.RwRegisterReadsBackTheLastWrite : Prop :=
  ∀ (s : State) (v : Word) (n : Nat) (rest : List Input),
    n ∈ [0x08, 0x09, 0x0A, 0x0B, 0x0C, 0x0D, 0x0E, 0x10, 0x11, 0x12] →
    s.script = .write .reg n v :: rest →
    ∃ t, step s = .next t ∧
      t.portRead .reg n = (if n = 0x0C then v &&& 3#64 else v) ∧
      (∀ m, m ≠ n → t.portRead .reg m = s.portRead .reg m) ∧
      (∀ a, t.portRead .data a = s.portRead .data a) ∧ (∀ i, t.portRead .tab i = s.portRead .tab i) ∧
      t.engine = s.engine ∧ t.status = s.status ∧ t.reads = s.reads ∧ t.script = rest

/-- The flag and field registers read as their rules lay them out, every reserved bit and `BUSY` 0 (R31, R38, R39, R41, R43): each field stands at its place, and nothing stands above the last one. -/
def Obligations.FieldRegistersReadAsLaidOut : Prop :=
  ∀ s : State,
    let status := s.portRead .reg 0x03
    let flags := s.portRead .reg 0x0C
    let ecfg := s.portRead .reg 0x24
    let tcfg := s.portRead .reg 0x28
    (status.getLsbD 0 = s.status.done ∧ status.getLsbD 1 = s.status.err ∧ status.getLsbD 2 = s.status.rv ∧
      status.getLsbD 3 = s.status.ev ∧ status.getLsbD 4 = s.status.tv ∧ status.getLsbD 5 = s.status.estk ∧
      status.toNat < 2 ^ 6) ∧
    (s.portRead .reg 0x04).toNat = s.errcode.toNat ∧
    (flags.getLsbD 0 = s.params.refin ∧ flags.getLsbD 1 = s.params.refout ∧ flags.toNat < 2 ^ 2) ∧
    (ecfg.toNat % 2 ^ 8 = s.engine.width.toNat ∧ ecfg.getLsbD 8 = s.engine.refin ∧ ecfg.getLsbD 9 = s.engine.refout ∧
      ecfg.getLsbD 10 = s.engine.rr ∧
      ecfg.toNat / 2 ^ 11 % 2 ^ 3 =
        (match s.engine.kind with | .tlsb => 0 | .tmsb => 1 | .gmsb => 2 | .glsb => 3 | .win => 4) ∧
      ecfg.toNat / 2 ^ 14 % 2 ^ 2 = 0 ∧ ecfg.toNat / 2 ^ 16 = s.engine.lshift.toNat) ∧
    (tcfg.toNat % 2 ^ 8 = s.tableInfo.width.toNat ∧ tcfg.getLsbD 8 = decide (s.tableInfo.conv = .lsb) ∧
      tcfg.getLsbD 9 = s.status.tv ∧ tcfg.toNat < 2 ^ 10)

/-- R46's map: each whole-word register number reads the state that the commands know under its name, `ID` and `CAP` read their constants and `CMD` reads 0 in every state, and a host write to an `RW` number writes the state of that name and nothing else (R21, R22, R23, R25, R27 to R37, R40, R43).
The fields of `STATUS`, `ERRCODE`, `FLAGS`, `ECFG`, `TCFG` as they read are `FieldRegistersReadAsLaidOut`'s; the script is the model's (log 1). -/
def Obligations.RegisterNumbersSelectTheNamedState : Prop :=
  ∀ s : State,
    (s.portRead .reg 0x00 = 0x43524301#64 ∧ s.portRead .reg 0x01 = 0x00100040#64 ∧ s.portRead .reg 0x02 = 0#64 ∧
    s.portRead .reg 0x08 = s.params.poly ∧ s.portRead .reg 0x09 = s.params.width ∧ s.portRead .reg 0x0A = s.params.seed ∧
    s.portRead .reg 0x0B = s.params.xorout ∧ s.portRead .reg 0x0D = s.opa ∧ s.portRead .reg 0x0E = s.seedovr ∧
    s.portRead .reg 0x10 = s.dlen ∧ s.portRead .reg 0x11 = s.start ∧ s.portRead .reg 0x12 = s.length ∧
    s.portRead .reg 0x18 = s.result ∧ s.portRead .reg 0x20 = s.engine.epoly ∧ s.portRead .reg 0x21 = s.engine.eseed ∧
    s.portRead .reg 0x22 = s.engine.exorout ∧ s.portRead .reg 0x23 = s.engine.emask ∧ s.portRead .reg 0x29 = s.tableInfo.tpoly) ∧
    ∀ (v : Word) (rest : List Input),
      let after : State := { s with script := rest }
      let writing := fun n => { s with script := .write .reg n v :: rest }
      step (writing 0x08) = .next { after with params := { s.params with poly := v } } ∧
      step (writing 0x09) = .next { after with params := { s.params with width := v } } ∧
      step (writing 0x0A) = .next { after with params := { s.params with seed := v } } ∧
      step (writing 0x0B) = .next { after with params := { s.params with xorout := v } } ∧
      step (writing 0x0C) = .next { after with params := { s.params with refin := v.getLsbD 0, refout := v.getLsbD 1 } } ∧
      step (writing 0x0D) = .next { after with opa := v } ∧
      step (writing 0x0E) = .next { after with seedovr := v } ∧
      step (writing 0x10) = .next { after with dlen := v } ∧
      step (writing 0x11) = .next { after with start := v } ∧
      step (writing 0x12) = .next { after with length := v }

/-- R65: a host write to `DATA` stores the byte at its address and no other; every register and table entry reads as before.
The canonical form is the model's (log 7), and so is what a register number of `0x40` or more reads as (log 11). -/
def Obligations.DataWriteStoresOneByte : Prop :=
  ∀ (s : State) (v : Word) (a : Nat) (rest : List Input), a < 4096 →
    s.script = .write .data a v :: rest →
    ∃ t, step s = .next t ∧ t = { s with script := rest, data := t.data } ∧
      t.portRead .data a = v &&& 0xFF#64 ∧ (∀ x, x ≠ a → t.dataByte x = s.dataByte x) ∧
      (∀ n, t.portRead .reg n = s.portRead .reg n) ∧ (∀ i, t.portRead .tab i = s.portRead .tab i) ∧
      (Memory.wf s.data → Memory.wf t.data)

/-- With no input left a step changes nothing: the block is idle and keeps all its state.
THE MODEL'S CHOICE (log 2), read from R13, R200 and R211. -/
def Obligations.IdleBlockKeepsItsState : Prop :=
  ∀ s : State, s.script = [] → step s = .next s

/-! ### Reset -/

/-- The state right after reset, as R210 lists it: `ID` and `CAP` at their constants, every other register number of R60 reads 0, no engine, table, result or error, and the constant ROM.
R210 leaves `DATA` and `TABLE` unspecified, and this says nothing of them. -/
def Obligations.ResetLeavesTheListedValues : Prop :=
  (∀ n, n < 0x40 →
    State.reset.portRead .reg n = if n = 0 then 0x43524301#64 else if n = 1 then 0x00100040#64 else 0#64) ∧
  State.reset.status = ⟨false, false, false, false, false, false⟩ ∧
  (∀ i : Byte, (brev i).toNat = reverseBits i.toNat 8)

/-- After reset every byte of `DATA` and every entry of `TABLE` is the free value of its address, which nothing constrains (R213).
THE MODEL'S FORM of "unspecified": the opaque constants of logs 4 and 5, numbered by the resets so far (log 6). -/
def Obligations.ResetMemoriesHoldFreeValues : Prop :=
  (∀ a, State.reset.dataByte a = Config.initData State.reset.draws a) ∧
  (∀ i, State.reset.tableEntry i = Config.initTable State.reset.draws i)

/-- `SRST` answers a state in which every register reads its reset value and `STATUS` is 0, `DONE` included; `DATA` and `TABLE` become unspecified; the hardware reset gives the same state (R181, R212).
THE MODEL'S CHOICES in it: the free values of the memories and their numbering (logs 4, 5, 6), the reset input (log 3), the host's script and list (log 1), register numbers of `0x40` or more (log 11). -/
def Obligations.SoftResetEqualsReset : Prop :=
  ∀ s : State, ∃ t, exec .srst s = .next t ∧
    (∀ n, t.portRead .reg n = State.reset.portRead .reg n) ∧
    t.status = ⟨false, false, false, false, false, false⟩ ∧
    t.engine = State.reset.engine ∧ t.params = State.reset.params ∧
    (∀ a, t.dataByte a = Config.initData t.draws a) ∧ (∀ i, t.tableEntry i = Config.initTable t.draws i) ∧
    t.script = s.script ∧ t.reads = s.reads ∧
    (∀ rest, step { s with script := .reset :: rest } = .next { t with script := rest })

/-- The state after reset is sound. -/
def Obligations.ResetStateIsSound : Prop := State.reset.Inv

/-- Every step from a sound state that answers a next state answers a sound one: `DATA` keeps its canonical form, a valid table is the one its descriptor names, a built engine is one a legal `BUILD` makes and has its own table, `ERRCODE` agrees with `ERR`. -/
def Obligations.EveryStepKeepsTheStateSound : Prop :=
  ∀ s t : State, s.Inv → step s = .next t → t.Inv

/-- From a sound state no step stops, whatever the host does: every command terminates, and the block "never hangs and is never stuck" (R7, R13). -/
def Obligations.SoundBlockIsNeverStuck : Prop :=
  ∀ s : State, s.Inv → ∃ t, step s = .next t

/-! ### Bit reversal -/

/-- `REV <nbits>` for `nbits` in 1..64: bit `i` of `RESULT` is bit `nbits-1-i` of `OPA` below `nbits` and 0 above, and nothing but `RESULT`, `RV`, `DONE`, `ERR`, `ERRCODE` changes (R100, R103). -/
def Obligations.RevReversesTheLowBits : Prop :=
  ∀ (s : State) (n : Nat), 1 ≤ n → n ≤ 64 →
    ∃ t r, exec (.rev n) s = .next t ∧ s.ResultOnly t r ∧ r < 2 ^ n ∧
      (∀ i, i < 64 → t.result.getLsbD i = (decide (i < n) && s.opa.getLsbD (n - 1 - i))) ∧
      (∀ a, t.dataByte a = s.dataByte a)

/-- `REV` with `NBITS = 0` or `NBITS > 64` raises `ILL_NBITS` (R103). -/
def Obligations.RevRefusesIllegalBitCounts : Prop :=
  ∀ (s : State) (n : Nat), n = 0 ∨ 64 < n → ∃ t, exec (.rev n) s = .next t ∧ s.ErrorOnly t .illNbits

/-- R104: reversing twice returns the value modulo `2^n`, reversal is linear over XOR, and reverses `mask(n)` and 1 as stated; on the machine, `REV n` of the result of `REV n`. -/
def Obligations.ReversalIsAnInvolution : Prop :=
  ∀ n, 1 ≤ n → n ≤ 64 →
    (∀ x, reverseBits (reverseBits x n) n = x % 2 ^ n) ∧
    (∀ a b, reverseBits (a ^^^ b) n = reverseBits a n ^^^ reverseBits b n) ∧
    reverseBits (mask n) n = mask n ∧ reverseBits 1 n = 2 ^ (n - 1) ∧
    (∀ s : State, ∃ t u, exec (.rev n) s = .next t ∧ exec (.rev n) { t with opa := t.result } = .next u ∧
      u.result.toNat = s.opa.toNat % 2 ^ n)

/-- The byte-at-a-time realisation through the ROM gives `reverse_bits` (R101). -/
def Obligations.ByteReversalTableRealisesReversal : Prop :=
  ∀ v n, 1 ≤ n → n ≤ 64 → reverseBitsByBytes v n = reverseBits v n

/-! ### The table generator -/

/-- `GENTAB.M` and `GENTAB.L` complete for `1 ≤ WIDTH ≤ 64` and `POLY < 2^WIDTH`, whatever `SEED`, `XOROUT` and `FLAGS` hold: the 256 entries of their table, `TPOLY`, `TCFG`, `TV ← 1`, and `EV ← 0` exactly when a table kind was built; nothing else changes (R114, R115, R116). -/
def Obligations.GentabWritesTheTable : Prop :=
  ∀ (s : State) (conv : Conv), 1 ≤ s.params.width.toNat → s.params.width.toNat ≤ 64 →
    s.params.poly.toNat < 2 ^ s.params.width.toNat →
    ∃ t, exec conv.gentab s = .next t ∧
      t = { s with
        table := t.table
        tableInfo := ⟨s.params.width.setWidth 8, conv, s.params.poly⟩
        errcode := 0#8
        status := { s.status with
          tv := true, done := true, err := false
          ev := s.status.ev && !(s.engine.kind == .tlsb || s.engine.kind == .tmsb) } } ∧
      t.table.length = 256 ∧
      (∀ i, i < 256 → (t.tableEntry i).toNat =
        directEntry conv s.params.poly.toNat s.params.width.toNat i) ∧
      (∀ a, t.dataByte a = s.dataByte a)

/-- R111: the argument checks of `GENTAB.M` and `GENTAB.L`, in order, before anything is written; arguments that pass them are accepted whatever `SEED`, `XOROUT`, `FLAGS` hold, the polynomial 0 (an all-zero table) included. -/
def Obligations.GentabChecksItsArgumentsInOrder : Prop :=
  ∀ (s : State) (conv : Conv),
    (s.params.width.toNat = 0 → ∃ t, exec conv.gentab s = .next t ∧ s.ErrorOnly t .cfgWidthZero) ∧
    (64 < s.params.width.toNat → ∃ t, exec conv.gentab s = .next t ∧ s.ErrorOnly t .cfgWidthBig) ∧
    (1 ≤ s.params.width.toNat → s.params.width.toNat ≤ 64 → 2 ^ s.params.width.toNat ≤ s.params.poly.toNat →
      ∃ t, exec conv.gentab s = .next t ∧ s.ErrorOnly t .cfgPolyWide) ∧
    (1 ≤ s.params.width.toNat → s.params.width.toNat ≤ 64 → s.params.poly.toNat < 2 ^ s.params.width.toNat →
      ∃ t, exec conv.gentab s = .next t ∧ t.status.done = true ∧
        (s.params.poly = 0#64 → ∀ i, i < 256 → t.tableEntry i = 0#64))

/-- R118: the doubling constructions compute, for every index, the entry that eight rounds on the index itself give. -/
def Obligations.TableEntriesAreEightRounds : Prop :=
  ∀ (poly w i : Nat), 1 ≤ w → w ≤ 64 → poly < 2 ^ w → i < 256 →
    (genTableMsb poly w)[i]? = some (directEntryMsb poly w i) ∧
    (genTableLsb poly w)[i]? = some (directEntryLsb poly w i)

/-- R117: while `TV = 1` the table is XOR-linear, and entry 0 is 0; every entry is below `2^TCFG.WIDTH` (R42). -/
def Obligations.ValidTableIsXorLinear : Prop :=
  ∀ s : State, s.Inv → s.status.tv = true →
    s.tableEntry 0 = 0#64 ∧
    (∀ i j, i < 256 → j < 256 → s.tableEntry (i ^^^ j) = s.tableEntry i ^^^ s.tableEntry j) ∧
    (∀ i, i < 256 → (s.tableEntry i).toNat < 2 ^ s.tableInfo.width.toNat)

/-! ### Engine construction -/

/-- The common checks of every `BUILD`, in R121's order. -/
def Obligations.BuildChecksTheParameterSetInOrder : Prop :=
  ∀ (s : State) (i : Instr), i.isBuild = true →
    let w := s.params.width.toNat
    (w = 0 → ∃ t, exec i s = .next t ∧ s.ErrorOnly t .cfgWidthZero) ∧
    (64 < w → ∃ t, exec i s = .next t ∧ s.ErrorOnly t .cfgWidthBig) ∧
    (1 ≤ w → w ≤ 64 → 2 ^ w ≤ s.params.poly.toNat → ∃ t, exec i s = .next t ∧ s.ErrorOnly t .cfgPolyWide) ∧
    (1 ≤ w → w ≤ 64 → s.params.poly.toNat < 2 ^ w → 2 ^ w ≤ s.params.seed.toNat →
      ∃ t, exec i s = .next t ∧ s.ErrorOnly t .cfgSeedWide) ∧
    (1 ≤ w → w ≤ 64 → s.params.poly.toNat < 2 ^ w → s.params.seed.toNat < 2 ^ w →
      2 ^ w ≤ s.params.xorout.toNat → ∃ t, exec i s = .next t ∧ s.ErrorOnly t .cfgXoroutWide)

/-- The kind-specific checks, made after the common ones: each failing check is the error, and a kind whose checks pass, or that has none, is built (R122). -/
def Obligations.TableKindsCheckTheirConvention : Prop :=
  ∀ s : State, s.params.Legal →
    (s.params.refin = false → ∃ t, exec .buildTlsb s = .next t ∧ s.ErrorOnly t .cfgConv) ∧
    (s.params.refin = true → ∃ t, exec .buildTmsb s = .next t ∧ s.ErrorOnly t .cfgConv) ∧
    (s.params.refin = false → s.params.width.toNat < 8 →
      ∃ t, exec .buildTmsb s = .next t ∧ s.ErrorOnly t .cfgTmsbNarrow) ∧
    (s.params.refin = true → ∃ t, exec .buildTlsb s = .next t ∧ t.status.done = true ∧ t.engine.kind = .tlsb) ∧
    (s.params.refin = false → 8 ≤ s.params.width.toNat →
      ∃ t, exec .buildTmsb s = .next t ∧ t.status.done = true ∧ t.engine.kind = .tmsb) ∧
    (∀ k : Kind, k = .gmsb ∨ k = .glsb ∨ k = .win →
      ∃ t, exec k.build s = .next t ∧ t.status.done = true ∧ t.engine.kind = k)

/-- `BUILD.GMSB`, `BUILD.GLSB`, `BUILD.WIN` complete for every legal Parameter Set: the latched registers of R123 and `EV ← 1`; the table, its descriptor, `TV`, `RESULT`, `RV` and everything else stay (R123, R126, R127, R128). -/
def Obligations.BitByBitBuildsLatchTheParameterSet : Prop :=
  ∀ (s : State) (k : Kind), s.params.Legal → k.usesTable = false →
    ∃ t, exec k.build s = .next t ∧
      t = { s with
        engine := t.engine
        errcode := 0#8
        status := { s.status with ev := true, done := true, err := false } } ∧
      t.engine.epoly = s.params.poly ∧ t.engine.eseed = s.params.seed ∧ t.engine.exorout = s.params.xorout ∧
      t.engine.emask.toNat = 2 ^ s.params.width.toNat - 1 ∧ t.engine.width.toNat = s.params.width.toNat ∧
      t.engine.refin = s.params.refin ∧ t.engine.refout = s.params.refout ∧
      t.engine.rr = (s.params.refin ^^ s.params.refout) ∧ t.engine.kind = k ∧
      t.engine.lshift.toNat = (if s.params.width.toNat < 8 then 8 - s.params.width.toNat else 0) ∧
      (∀ a, t.dataByte a = s.dataByte a)

/-- `BUILD.TLSB` with `REFIN = 1`, and `BUILD.TMSB` with `REFIN = 0` and `WIDTH ≥ 8`, complete for every legal Parameter Set: beside the latched registers of R123 they write the table of their convention, its descriptor and `TV`; `RESULT`, `RV` and everything else stay (R123, R124, R125). -/
def Obligations.TableBuildsLatchAndGenerate : Prop :=
  ∀ (s : State) (k : Kind), s.params.Legal →
    (k = .tlsb ∧ s.params.refin = true ∨ k = .tmsb ∧ s.params.refin = false ∧ 8 ≤ s.params.width.toNat) →
    ∃ t, exec k.build s = .next t ∧
      t = { s with
        engine := t.engine
        table := t.table
        tableInfo := ⟨s.params.width.setWidth 8, (if k = .tlsb then .lsb else .msb), s.params.poly⟩
        errcode := 0#8
        status := { s.status with ev := true, tv := true, done := true, err := false } } ∧
      t.engine.epoly = s.params.poly ∧ t.engine.eseed = s.params.seed ∧ t.engine.exorout = s.params.xorout ∧
      t.engine.emask.toNat = 2 ^ s.params.width.toNat - 1 ∧ t.engine.width.toNat = s.params.width.toNat ∧
      t.engine.refin = s.params.refin ∧ t.engine.refout = s.params.refout ∧
      t.engine.rr = (s.params.refin ^^ s.params.refout) ∧ t.engine.kind = k ∧
      t.engine.lshift.toNat = (if s.params.width.toNat < 8 then 8 - s.params.width.toNat else 0) ∧
      t.table.length = 256 ∧
      (∀ i, i < 256 → (t.tableEntry i).toNat =
        directEntry (if k = .tlsb then .lsb else .msb) s.params.poly.toNat s.params.width.toNat i) ∧
      (∀ a, t.dataByte a = s.dataByte a)

/-- R129: for a legal Parameter Set `BUILD.AUTO` completes as the explicit build of the kind it selects, and never chooses GLSB or WIN; the chosen kind stands in `ECFG.KIND`. -/
def Obligations.AutoBuildSelectsTheKind : Prop :=
  ∀ s : State, s.params.Legal →
    let p := s.params
    let k : Kind :=
      if p.refin = true ∧ p.refout = true then .tlsb
      else if p.refin = false ∧ p.refout = false ∧ 8 ≤ p.width.toNat then .tmsb
      else .gmsb
    ∃ t, exec .buildAuto s = .next t ∧ exec k.build s = .next t ∧
      t.status.done = true ∧ t.status.ev = true ∧ t.engine.kind = k ∧ t.params = s.params ∧
      (∀ a, t.dataByte a = s.dataByte a)

/-- A table that a table-driven `BUILD` leaves is the one `GENTAB` of its convention would leave for the same `POLY`, `WIDTH`, entry by entry and in its descriptor (R223). -/
def Obligations.BuiltTableIsTheGeneratedTable : Prop :=
  ∀ s t u : State,
    (exec .buildTlsb s = .next t → t.status.done = true → exec .gentabL s = .next u →
      u.status.done = true ∧ t.table = u.table ∧ t.tableInfo = u.tableInfo) ∧
    (exec .buildTmsb s = .next t → t.status.done = true → exec .gentabM s = .next u →
      u.status.done = true ∧ t.table = u.table ∧ t.tableInfo = u.tableInfo)

/-! ### The engines -/

/-- R156: the two generic engines agree for every Parameter Set, byte sequence and initial value. -/
def Obligations.GenericEnginesAgree : Prop :=
  ∀ (e : Engine) (rd : Nat → Byte) (n seed0 : Nat), e.WellBuilt → seed0 < 2 ^ e.width.toNat →
    calcGlsb e rd n seed0 = calcGmsb e rd n seed0

/-- R134: the LSB-first table engine agrees with the MSB-first generic engine whenever it can be built (`REFIN = 1`, both values of `REFOUT`, every width). -/
def Obligations.LsbTableEngineAgreesWithGeneric : Prop :=
  ∀ (e : Engine) (rd : Nat → Byte) (n : Nat), e.WellBuilt → e.refin = true →
    calcTlsb e (fun i => (genTableLsb e.epoly.toNat e.width.toNat).getD i 0) rd n =
      calcGmsb e rd n e.eseed.toNat

/-- R134: the MSB-first table engine agrees with the MSB-first generic engine whenever it can be built (`REFIN = 0`, `w ≥ 8`, both values of `REFOUT`). -/
def Obligations.MsbTableEngineAgreesWithGeneric : Prop :=
  ∀ (e : Engine) (rd : Nat → Byte) (n : Nat), e.WellBuilt → e.refin = false → 8 ≤ e.width.toNat →
    calcTmsb e (fun i => (genTableMsb e.epoly.toNat e.width.toNat).getD i 0) rd n =
      calcGmsb e rd n e.eseed.toNat

/-- R172: over a byte-aligned window of bytes `[a, b)`, `a < b ≤ n`, the windowed engine returns what the full engine returns over those bytes, for both values of `REFIN`; the whole buffer is the case `a = 0`, `b = n` (R169). -/
def Obligations.AlignedWindowIsTheCrcOfItsBytes : Prop :=
  ∀ (e : Engine) (rd : Nat → Byte) (n a b seed0 : Nat), e.WellBuilt → seed0 < 2 ^ e.width.toNat →
    a < b → b ≤ n →
    calcWin e rd n (8 * (a : Int)) (8 * ((b : Int) - a)) seed0 =
      .ok (calcGmsb e (fun k => rd (a + k)) (b - a) seed0)

/-- A message may be processed in pieces: with `REFOUT = 0` and `xor_out = 0` the result over the first bytes, fed back as the seed override, continues over the rest (R157). -/
def Obligations.SeedOverrideChainsPieces : Prop :=
  ∀ (e : Engine) (rd : Nat → Byte) (n m seed0 : Nat), e.WellBuilt → seed0 < 2 ^ e.width.toNat →
    e.refout = false → e.exorout = 0#64 →
    calcGmsb e rd (n + m) seed0 = calcGmsb e (fun k => rd (n + k)) m (calcGmsb e rd n seed0) ∧
    calcGlsb e rd (n + m) seed0 = calcGlsb e (fun k => rd (n + k)) m (calcGlsb e rd n seed0)

/-- R133, R134. In every sound state with an engine built, `CALC` and `CALC.SO` complete and leave in `RESULT` the one value that the MSB-first generic algorithm gives for the engine's Parameter Set, whichever of the five engines is built; the result is below `2^width`, and nothing else changes. -/
def Obligations.CalcReturnsTheCrcOnEveryEngine : Prop :=
  ∀ (s : State) (so : Bool), s.Inv → s.status.ev = true → s.dlen.toNat ≤ 4096 →
    (s.engine.kind = .win → 1 ≤ s.dlen.toNat) →
    (so = true → s.engine.kind.usesTable = false) → s.SeedFits so →
    ∃ t r, exec (.calcBuffer so) s = .next t ∧ s.ResultOnly t r ∧
      r = calcGmsb s.engine s.dataByte s.dlen.toNat (if so then s.seedovr.toNat else s.engine.eseed.toNat) ∧
      r < 2 ^ s.engine.width.toNat ∧ (∀ a, t.dataByte a = s.dataByte a)

/-- R135: for `DLEN = 0` the four whole-buffer engines return `(reverse_bits(seed0, w) if REFOUT else seed0) ^ xorout`; the windowed engine raises `RNG_START_HIGH`. -/
def Obligations.EmptyInputReturnsTheSeed : Prop :=
  ∀ (s : State) (so : Bool), s.Inv → s.status.ev = true → s.dlen = 0#64 →
    (so = true → s.engine.kind.usesTable = false) → s.SeedFits so →
    let seed0 := if so then s.seedovr.toNat else s.engine.eseed.toNat
    (s.engine.kind ≠ .win → ∃ t, exec (.calcBuffer so) s = .next t ∧ t.status.done = true ∧ t.status.rv = true ∧
      t.result.toNat = (if s.engine.refout then reverseBits seed0 s.engine.width.toNat else seed0)
        ^^^ s.engine.exorout.toNat) ∧
    (s.engine.kind = .win → ∃ t, exec (.calcBuffer so) s = .next t ∧ s.ErrorOnly t .rngStartHigh)

/-- The checks of `CALC` before it computes, in R130's order. -/
def Obligations.CalcChecksInOrder : Prop :=
  ∀ (s : State) (so : Bool),
    (s.status.ev = false → ∃ t, exec (.calcBuffer so) s = .next t ∧ s.ErrorOnly t .illNoengine) ∧
    (s.status.ev = true → so = true → s.engine.kind.usesTable = true →
      ∃ t, exec (.calcBuffer so) s = .next t ∧ s.ErrorOnly t .illSeedovr) ∧
    (s.status.ev = true → (so = true → s.engine.kind.usesTable = false) → 4096 < s.dlen.toNat →
      ∃ t, exec (.calcBuffer so) s = .next t ∧ s.ErrorOnly t .illDlen) ∧
    (s.status.ev = true → so = true → s.engine.kind.usesTable = false → s.dlen.toNat ≤ 4096 →
      2 ^ s.engine.width.toNat ≤ s.seedovr.toNat →
      ∃ t, exec (.calcBuffer so) s = .next t ∧ s.ErrorOnly t .cfgSeedovrWide)

/-- A latched engine whose rule would shift by a negative count (`w - 8` of kind TMSB, `rw - 8` of kinds GMSB and WIN) stops `CALC` and `CALCW` by name once the checks of R130 and R132 have passed: R10 and R144 give that shift no meaning.
Such an engine is in no sound state. THE MODEL'S CHOICE of a fault (log 8, U8). -/
def Obligations.NegativeShiftStops : Prop :=
  ∀ (s : State) (so : Bool), s.status.ev = true → s.dlen.toNat ≤ 4096 → s.SeedFits so →
    (s.engine.kind = .tmsb ∧ s.engine.width.toNat < 8 ∨
      (s.engine.kind = .gmsb ∨ s.engine.kind = .win) ∧ s.engine.width.toNat + s.engine.lshift.toNat < 8) →
    ((so = true → s.engine.kind.usesTable = false) → exec (.calcBuffer so) s = .fault .negativeShift) ∧
    (s.engine.kind = .win → ∀ dl, exec (.calcWindow so dl) s = .fault .negativeShift) ∧
    ¬ s.Inv

/-! ### The windowed engine -/

/-- The front-end checks of `CALCW` in R132's order, then the four range checks in R162's order. -/
def Obligations.CalcwChecksInOrder : Prop :=
  ∀ (s : State) (so dl : Bool),
    (s.status.ev = false → ∃ t, exec (.calcWindow so dl) s = .next t ∧ s.ErrorOnly t .illNoengine) ∧
    (s.status.ev = true → s.engine.kind ≠ .win →
      ∃ t, exec (.calcWindow so dl) s = .next t ∧ s.ErrorOnly t .illNotwin) ∧
    (s.status.ev = true → s.engine.kind = .win → 4096 < s.dlen.toNat →
      ∃ t, exec (.calcWindow so dl) s = .next t ∧ s.ErrorOnly t .illDlen) ∧
    (s.status.ev = true → s.engine.kind = .win → s.dlen.toNat ≤ 4096 → so = true →
      2 ^ s.engine.width.toNat ≤ s.seedovr.toNat →
      ∃ t, exec (.calcWindow so dl) s = .next t ∧ s.ErrorOnly t .cfgSeedovrWide) ∧
    (s.Inv → s.status.ev = true → s.engine.kind = .win → s.dlen.toNat ≤ 4096 → s.SeedFits so →
      let total : Int := 8 * s.dlen.toNat
      let start := s.start.toInt
      let len := if dl then total - start else s.length.toInt
      (start < 0 → ∃ t, exec (.calcWindow so dl) s = .next t ∧ s.ErrorOnly t .rngStartNeg) ∧
      (total ≤ start → ∃ t, exec (.calcWindow so dl) s = .next t ∧ s.ErrorOnly t .rngStartHigh) ∧
      (0 ≤ start → start < total → len < 0 → ∃ t, exec (.calcWindow so dl) s = .next t ∧ s.ErrorOnly t .rngLenNeg) ∧
      (0 ≤ start → start < total → total < start + len →
        ∃ t, exec (.calcWindow so dl) s = .next t ∧ s.ErrorOnly t .rngEndHigh))

/-- R170. For `REFIN = 0` a `CALCW` on a window in range completes with the bit-serial CRC of the window's bits followed by zero bits up to the end of its last byte, finalised; nothing else changes. -/
def Obligations.UnreflectedWindowIsThePaddedBitCrc : Prop :=
  ∀ (s : State) (so dl : Bool), s.Inv → s.status.ev = true → s.engine.kind = .win → s.dlen.toNat ≤ 4096 →
    s.SeedFits so → s.WindowInRange dl → s.engine.refin = false →
    ∃ t r, exec (.calcWindow so dl) s = .next t ∧ s.ResultOnly t r ∧
      r = finishMsb s.engine (bitCrc s.engine.epoly.toNat s.engine.width.toNat
        (if so then s.seedovr.toNat else s.engine.eseed.toNat)
        (paddedWindow s.dataByte s.windowStart.toNat (s.windowLength dl).toNat)) ∧
      r < 2 ^ s.engine.width.toNat ∧ (∀ a, t.dataByte a = s.dataByte a)

/-- R166. A `CALCW` on a window in range fails with `INT_RESIDUE` exactly in R166's situation, and in every other it completes with the value of `CalcWIN` (R168), below `2^width`, nothing else changing.
`UnreflectedWindowIsThePaddedBitCrc`, `ReflectedWindowMixesItsPartialFirstByte` and `AlignedStartIsTheCrcOfTheMaskedBytes` say independently what that value is. -/
def Obligations.ResidueAssertionFailsExactly : Prop :=
  ∀ (s : State) (so dl : Bool), s.Inv → s.status.ev = true → s.engine.kind = .win → s.dlen.toNat ≤ 4096 →
    s.SeedFits so → s.WindowInRange dl →
    let left := residueLeft s.engine s.dataByte s.windowStart.toNat (s.windowLength dl).toNat
    (left → ∃ t, exec (.calcWindow so dl) s = .next t ∧ s.ErrorOnly t .intResidue) ∧
    (¬ left → ∃ t r, exec (.calcWindow so dl) s = .next t ∧ s.ResultOnly t r ∧
      calcWin s.engine s.dataByte s.dlen.toNat s.windowStart (s.windowLength dl)
        (if so then s.seedovr.toNat else s.engine.eseed.toNat) = .ok r ∧
      r < 2 ^ s.engine.width.toNat ∧ (∀ a, t.dataByte a = s.dataByte a))

/-- R171. For `REFIN = 1` a `CALCW` on a window in range without a residue completes with the finalised bit-serial CRC of the window's bytes, each from its least significant bit up, masked at the end and aligned at the start;
of a first byte that begins `soff` bits in, only `8 - soff` bits are clocked, and its last `soff` bits are mixed into the bits that follow, or stay at the top of the register when no byte follows. Nothing else changes. -/
def Obligations.ReflectedWindowMixesItsPartialFirstByte : Prop :=
  ∀ (s : State) (so dl : Bool), s.Inv → s.status.ev = true → s.engine.kind = .win → s.dlen.toNat ≤ 4096 →
    s.SeedFits so → s.WindowInRange dl → s.engine.refin = true →
    ¬ residueLeft s.engine s.dataByte s.windowStart.toNat (s.windowLength dl).toNat →
    ∃ t, exec (.calcWindow so dl) s = .next t ∧
      s.ResultOnly t (finishMsb s.engine (reflectedRegister s.engine.epoly.toNat s.engine.width.toNat
        (if so then s.seedovr.toNat else s.engine.eseed.toNat)
        s.dataByte s.windowStart.toNat (s.windowLength dl).toNat)) ∧
      (∀ a, t.dataByte a = s.dataByte a)

/-- A window that starts on a byte boundary, wherever it ends and whatever `REFIN` is: the full engine's value over its bytes, the last one masked to its `keep` most significant bits (R163, R164, R170, R171). -/
def Obligations.AlignedStartIsTheCrcOfTheMaskedBytes : Prop :=
  ∀ (e : Engine) (rd : Nat → Byte) (n a m keep seed0 : Nat), e.WellBuilt → seed0 < 2 ^ e.width.toNat →
    1 ≤ keep → keep ≤ 8 → a + m < n →
    calcWin e rd n (8 * (a : Int)) (8 * (m : Int) + keep) seed0 =
      .ok (calcGmsb e
        (fun k => if k = m then BitVec.ofNat 8 ((rd (a + m)).toNat / 2 ^ (8 - keep) * 2 ^ (8 - keep)) else rd (a + k))
        (m + 1) seed0)

/-- R167: a window of no bits inside the buffer is valid whatever `REFIN` is, and `CALCW` completes with the finalised initial value; nothing else changes. -/
def Obligations.EmptyWindowReturnsTheSeed : Prop :=
  ∀ (s : State) (so : Bool), s.Inv → s.status.ev = true → s.engine.kind = .win → s.dlen.toNat ≤ 4096 →
    s.SeedFits so → 0 ≤ s.start.toInt → s.start.toInt < 8 * (s.dlen.toNat : Int) → s.length = 0#64 →
    let seed0 := if so then s.seedovr.toNat else s.engine.eseed.toNat
    ∃ t, exec (.calcWindow so false) s = .next t ∧
      s.ResultOnly t ((if s.engine.refout then reverseBits seed0 s.engine.width.toNat else seed0)
        ^^^ s.engine.exorout.toNat) ∧
      (∀ a, t.dataByte a = s.dataByte a)

/-- With `DL = 1` the length is the remainder of the buffer and `LENGTH` is ignored: `CALCW.DL` answers what `CALCW` answers with the remainder in `LENGTH` (R36, R161). -/
def Obligations.DefaultLengthIsTheRemainder : Prop :=
  ∀ (s : State) (so : Bool) (v : Word), s.dlen.toNat ≤ 4096 → 0 ≤ s.start.toInt →
    s.start.toInt < 8 * (s.dlen.toNat : Int) →
    (∀ t, exec (.calcWindow so true) s = .next t →
      exec (.calcWindow so true) { s with length := v } = .next { t with length := v }) ∧
    (s.length.toInt = 8 * (s.dlen.toNat : Int) - s.start.toInt →
      exec (.calcWindow so true) s = exec (.calcWindow so false) s)

/-! ### System commands and errors -/

/-- `CLRERR` completes: `ESTK ← 0`, `DONE ← 1`, `ERR ← 0`, `ERRCODE ← 0`; nothing else changes (R180). -/
def Obligations.ClrerrClearsTheStickyError : Prop :=
  ∀ s : State, ∃ t, exec .clrerr s = .next t ∧
    t = { s with errcode := 0#8, status := { s.status with estk := false, done := true, err := false } } ∧
    (∀ a, t.dataByte a = s.dataByte a) ∧ (∀ i, t.tableEntry i = s.tableEntry i)

/-- The codes of R186, value by value, are distinct; and error entry (R190) records the code, clears `RESULT`, `RV` and `DONE`, sets `ERR` and `ESTK`, and writes nothing else. -/
def Obligations.ErrorEntryRecordsTheCode : Prop :=
  [Err.rngStartNeg, .rngStartHigh, .rngLenNeg, .rngEndHigh, .cfgWidthZero, .cfgWidthBig, .cfgPolyWide, .cfgSeedWide,
      .cfgXoroutWide, .cfgConv, .cfgTmsbNarrow, .cfgSeedovrWide, .intResidue, .illOp, .illField, .illNbits,
      .illNoengine, .illNotwin, .illSeedovr, .illDlen].map Err.code =
    [0x10#8, 0x11#8, 0x12#8, 0x13#8, 0x20#8, 0x21#8, 0x22#8, 0x23#8, 0x24#8, 0x25#8, 0x26#8, 0x27#8, 0x30#8,
      0x40#8, 0x41#8, 0x42#8, 0x43#8, 0x44#8, 0x45#8, 0x46#8] ∧
  (∀ e f : Err, e.code = f.code → e = f) ∧
  ∀ (s : State) (e : Err), s.raiseError e = { s with
    status := { s.status with done := false, err := true, estk := true, rv := false }
    errcode := e.code
    result := 0#64 }

/-- A command that ends in an error has had no effect but error entry, and the error is one of those R202's table gives that command (R188, R190, R194, R202). -/
def Obligations.FailedCommandOnlyEntersItsError : Prop :=
  ∀ (i : Instr) (s t : State), exec i s = .next t → t.status.err = true →
    i ≠ .srst ∧ ∃ e ∈ i.errors, s.ErrorOnly t e

/-- After every write of `CMD` but a well-formed `SRST`, exactly one of `DONE`, `ERR` is 1, and `ERRCODE` is 0 exactly when it is `DONE` (R38, R39). -/
def Obligations.ExactlyOneOfDoneAndErr : Prop :=
  ∀ (s t : State) (c : Word) (rest : List Input), s.script = .write .reg 2 c :: rest →
    decode c ≠ .ok .srst → step s = .next t →
    t.status.done = !t.status.err ∧ (t.errcode = 0#8 ↔ t.status.done = true)

/-- An error blocks nothing, and no command's outcome depends on `DONE`, `ERR`, `RV`, `ESTK`, `ERRCODE` or an earlier `RESULT`: two states that differ only there end in the same `DONE`, `ERR`, `ERRCODE`, `EV`, `TV`, engine, table and memory, and in the same `RESULT` where the command produces or clears one (R38, R191). -/
def Obligations.NoCommandReadsTheOutcomeOfAnEarlierOne : Prop :=
  ∀ (i : Instr) (s t : State) (done err rv estk : Bool) (code : Byte) (res : Word), i ≠ .srst →
    exec i s = .next t →
    ∃ u, exec i { s with errcode := code, result := res,
                         status := { s.status with done := done, err := err, rv := rv, estk := estk } } = .next u ∧
      u = { t with result := u.result, status := { t.status with rv := u.status.rv, estk := u.status.estk } } ∧
      ((∃ n, i = .rev n) ∨ (∃ so, i = .calcBuffer so) ∨ (∃ so dl, i = .calcWindow so dl) ∨ t.status.err = true →
        u.result = t.result ∧ u.status.rv = t.status.rv)

/-- Writing the staged Parameter Set after a `BUILD` has no effect on the built engine: `CALC` and `CALCW` answer the same, whatever the staged registers and `OPA` hold (R40, R215). -/
def Obligations.StagedParametersDoNotReachTheEngine : Prop :=
  ∀ (s t : State) (p : Params) (v : Word) (i : Instr),
    ((∃ so, i = .calcBuffer so) ∨ (∃ so dl, i = .calcWindow so dl)) → exec i s = .next t →
    exec i { s with params := p, opa := v } = .next { t with params := p, opa := v }

/-- `CALC` and `CALCW`, successful or not, write only `RESULT`, `DONE`, `ERR`, `RV`, `ESTK` (on error) and `ERRCODE` (R136). -/
def Obligations.CalculationsLeaveTheRestAlone : Prop :=
  ∀ (s t : State) (i : Instr), ((∃ so, i = .calcBuffer so) ∨ (∃ so dl, i = .calcWindow so dl)) → exec i s = .next t →
    t = { s with result := t.result, errcode := t.errcode,
                 status := { t.status with ev := s.status.ev, tv := s.status.tv } } ∧
    (t.status.err = false → t.status.estk = s.status.estk) ∧
    (∀ a, t.dataByte a = s.dataByte a) ∧ (∀ j, t.tableEntry j = s.tableEntry j)

/-- A calculation consumes the bytes of its sequence and no other: on two states that agree but for bytes at or above `DLEN`, `CALC` and `CALCW` end alike (R65, R76, R219). -/
def Obligations.CalculationsReadOnlyTheirBytes : Prop :=
  ∀ (s t : State) (m : Memory) (d : Nat) (i : Instr),
    ((∃ so, i = .calcBuffer so) ∨ (∃ so dl, i = .calcWindow so dl)) →
    s.Inv → (∀ a, a < s.dlen.toNat → ({ s with data := m, draws := d } : State).dataByte a = s.dataByte a) →
    exec i s = .next t →
    exec i { s with data := m, draws := d } = .next { t with data := m, draws := d }

/-- A window's bytes are `data[first .. last]`: bytes outside it do not reach a `CALCW`, and an empty window reads no byte (R68, R168). -/
def Obligations.WindowReadsOnlyItsBytes : Prop :=
  ∀ (e : Engine) (rd rd' : Nat → Byte) (n : Nat) (start length : Int) (seed0 : Nat),
    (0 < length → ∀ b : Nat, start / 8 ≤ b → (b : Int) ≤ (start + length - 1) / 8 → rd b = rd' b) →
    calcWin e rd n start length seed0 = calcWin e rd' n start length seed0

/-- Who writes what, over all commands: the latched engine only by a `BUILD` (R40), the table and its descriptor only by a `GENTAB` or a `BUILD` (R42, R43), the staged parameters, the arguments and `DATA` by none (R65, R136); `SRST` apart. -/
def Obligations.OnlyTheNamedCommandsWrite : Prop :=
  ∀ (i : Instr) (s t : State), i ≠ .srst → exec i s = .next t →
    (i.isBuild = false → t.engine = s.engine) ∧
    (i.isBuild = false → i.isGentab = false → t.table = s.table ∧ t.tableInfo = s.tableInfo ∧ t.status.tv = s.status.tv) ∧
    t.params = s.params ∧ t.opa = s.opa ∧ t.seedovr = s.seedovr ∧ t.dlen = s.dlen ∧ t.start = s.start ∧
    t.length = s.length ∧ t.data = s.data ∧ t.draws = s.draws ∧ t.script = s.script ∧ t.reads = s.reads

/-- The life of an engine and of a table, over all commands and over all steps: an engine that is built stays built until `SRST`, reset, or a successful `GENTAB` under a table kind, and only a successful `BUILD` makes one (R48, R216); a valid table stays valid until `SRST` or reset (R213).
The steps are those of the model's script, where a reset is an input (logs 1 and 3). -/
def Obligations.EnginesAndTablesLastUntilTheNamedEvents : Prop :=
  (∀ (i : Instr) (s t : State), exec i s = .next t → i ≠ .srst →
    (s.status.ev = true → t.status.ev = false → i.isGentab = true ∧ s.engine.kind.usesTable = true ∧ t.status.done = true) ∧
    (s.status.ev = false → t.status.ev = true → i.isBuild = true ∧ t.status.done = true) ∧
    (s.status.tv = true → t.status.tv = true)) ∧
  (∀ s t : State, step s = .next t →
    (∀ rest, s.script ≠ .reset :: rest) →
    (∀ c rest, s.script = .write .reg 2 c :: rest → decode c ≠ .ok .srst) →
    (s.status.ev = true → t.status.ev = false → s.engine.kind.usesTable = true ∧ t.status.done = true ∧
      ∃ c i rest, s.script = .write .reg 2 c :: rest ∧ decode c = .ok i ∧ i.isGentab = true) ∧
    (s.status.ev = false → t.status.ev = true → t.status.done = true ∧
      ∃ c i rest, s.script = .write .reg 2 c :: rest ∧ decode c = .ok i ∧ i.isBuild = true) ∧
    (s.status.tv = true → t.status.tv = true))
end

