-- ==== Sys2Proof/Laws/Bits.lean ====
section
/-! SUPPORT. Bit laws: what `reverseBits`, the rounds and the loops do to each bit, that they are linear over XOR, and that the two bit conventions mirror each other (40_bit_reversal.md R104, 44_generic_engines.md R156). -/

namespace Sys2Proof.Machine

theorem and_mask (x n : Nat) : x &&& mask n = x % 2 ^ n := Nat.and_two_pow_sub_one_eq_mod x n

theorem testBit_mask (n i : Nat) : (mask n).testBit i = decide (i < n) := Nat.testBit_two_pow_sub_one n i

theorem fits_iff (v w : Nat) : fits v w = true ↔ v < 2 ^ w := by
  simp only [fits, beq_iff_eq, Nat.shiftRight_eq_div_pow, Nat.div_eq_zero_iff]
  have := Nat.two_pow_pos w
  omega

theorem testBit_of_lt {x n i : Nat} (h : x < 2 ^ n) (hi : n ≤ i) : x.testBit i = false :=
  Nat.testBit_lt_two_pow (lt_of_lt_of_le h (Nat.pow_le_pow_right (by omega) hi))

theorem lt_of_testBit {x n : Nat} (h : ∀ i, n ≤ i → x.testBit i = false) : x < 2 ^ n :=
  Nat.lt_pow_two_of_testBit x h

/-! ### Reversal -/

theorem reverseBits_lt (v n : Nat) : reverseBits v n < 2 ^ n := by
  induction n generalizing v with
  | zero => simp [reverseBits]
  | succ n ih =>
    have h := ih (v / 2)
    rcases Nat.mod_two_eq_zero_or_one v with hv | hv <;> simp only [reverseBits, hv, Nat.pow_succ] <;> omega

/-- R100, bit by bit: bit `i` below `n` of the output is bit `n-1-i` of the input, and higher bits are 0. -/
theorem testBit_reverseBits (v n i : Nat) :
    (reverseBits v n).testBit i = (decide (i < n) && v.testBit (n - 1 - i)) := by
  induction n generalizing v i with
  | zero => simp [reverseBits]
  | succ n ih =>
    have hlt := reverseBits_lt (v / 2) n
    have hrec : reverseBits v (n + 1) = 2 ^ n * (v % 2) + reverseBits (v / 2) n := by
      simp [reverseBits, Nat.mul_comm]
    rw [hrec, Nat.testBit_two_pow_mul_add _ hlt]
    by_cases hi : i < n
    · have e : n + 1 - 1 - i = (n - 1 - i) + 1 := by omega
      simp only [hi, if_true, ih, e, Nat.testBit_succ, decide_true, Bool.true_and]
      simp [show i < n + 1 by omega]
    · simp only [hi, if_false]
      by_cases h2 : i = n
      · subst h2; simp
      · have h3 : ¬ i < n + 1 := by omega
        have h4 : i - n = (i - n - 1) + 1 := by omega
        have h5 : v % 2 / 2 = 0 := by omega
        rw [h4, Nat.testBit_succ, h5]
        simp [h3]

theorem reverseBits_reverseBits (v n : Nat) : reverseBits (reverseBits v n) n = v % 2 ^ n := by
  apply Nat.eq_of_testBit_eq; intro i
  rw [testBit_reverseBits, testBit_reverseBits, Nat.testBit_mod_two_pow]
  by_cases h : i < n
  · have h2 : n - 1 - i < n := by omega
    have h3 : n - 1 - (n - 1 - i) = i := by omega
    simp [h, h2, h3]
  · simp [h]

theorem reverseBits_xor (a b n : Nat) :
    reverseBits (a ^^^ b) n = reverseBits a n ^^^ reverseBits b n := by
  apply Nat.eq_of_testBit_eq; intro i
  simp only [testBit_reverseBits, Nat.testBit_xor]
  by_cases h : i < n <;> simp [h]

@[simp] theorem reverseBits_zero (n : Nat) : reverseBits 0 n = 0 := by
  apply Nat.eq_of_testBit_eq; intro i
  simp [testBit_reverseBits]

/-- Aligning a value to the top of a wider field does not change its reversal. -/
theorem reverseBits_shiftLeft (v w ls : Nat) :
    reverseBits (v <<< ls) (w + ls) = reverseBits v w := by
  apply Nat.eq_of_testBit_eq; intro i
  simp only [testBit_reverseBits, Nat.testBit_shiftLeft]
  by_cases h : i < w
  · have e : w + ls - 1 - i - ls = w - 1 - i := by omega
    simp [h, show i < w + ls by omega, show ls ≤ w + ls - 1 - i by omega, e]
  · by_cases h2 : i < w + ls
    · simp [h, show ¬ ls ≤ w + ls - 1 - i by omega]
    · simp [h, h2]

theorem brev_toNat (v : Byte) : (brev v).toNat = reverseBits v.toNat 8 := by
  have h := reverseBits_lt v.toNat 8
  simp only [brev, BitVec.toNat_ofNat]
  omega

theorem brev_brev (v : Byte) : brev (brev v) = v := by
  apply BitVec.eq_of_toNat_eq
  rw [brev_toNat, brev_toNat, reverseBits_reverseBits]
  exact Nat.mod_eq_of_lt v.isLt

/-! ### Rounds -/

theorem testBit_roundMsb (p rw x i : Nat) :
    (roundMsb p rw x).testBit i =
      (((decide (1 ≤ i) && x.testBit (i - 1)) ^^ (x.testBit (rw - 1) && p.testBit i)) && decide (i < rw)) := by
  unfold roundMsb
  rw [Nat.testBit_and, testBit_mask, Nat.testBit_xor, Nat.testBit_shiftLeft]
  cases x.testBit (rw - 1) <;> simp

theorem testBit_roundLsb (p x i : Nat) :
    (roundLsb p x).testBit i = (x.testBit (i + 1) ^^ (x.testBit 0 && p.testBit i)) := by
  unfold roundLsb
  rw [Nat.testBit_xor, Nat.testBit_shiftRight, Nat.add_comm 1 i]
  cases x.testBit 0 <;> simp

theorem roundMsb_lt (p rw x : Nat) : roundMsb p rw x < 2 ^ rw := by
  unfold roundMsb
  rw [and_mask]
  exact Nat.mod_lt _ (Nat.two_pow_pos rw)

theorem roundMsb_xor (p rw a b : Nat) :
    roundMsb p rw (a ^^^ b) = roundMsb p rw a ^^^ roundMsb p rw b := by
  apply Nat.eq_of_testBit_eq; intro i
  simp only [testBit_roundMsb, Nat.testBit_xor]
  cases a.testBit (i - 1) <;> cases b.testBit (i - 1) <;> cases a.testBit (rw - 1) <;>
    cases b.testBit (rw - 1) <;> cases p.testBit i <;> cases decide (1 ≤ i) <;> cases decide (i < rw) <;> rfl

theorem roundLsb_xor (p a b : Nat) : roundLsb p (a ^^^ b) = roundLsb p a ^^^ roundLsb p b := by
  apply Nat.eq_of_testBit_eq; intro i
  simp only [testBit_roundLsb, Nat.testBit_xor]
  cases a.testBit (i + 1) <;> cases b.testBit (i + 1) <;> cases a.testBit 0 <;> cases b.testBit 0 <;>
    cases p.testBit i <;> rfl

/-- A left-shift round without feedback. -/
theorem roundMsb_shift (p rw x : Nat) (hx : x < 2 ^ (rw - 1)) : roundMsb p rw x = x <<< 1 % 2 ^ rw := by
  unfold roundMsb
  rw [testBit_of_lt hx (le_refl _), and_mask]
  simp

/-- A right-shift round without feedback. -/
theorem roundLsb_shift (p x : Nat) : roundLsb p (x <<< 1) = x := by
  apply Nat.eq_of_testBit_eq; intro i
  rw [testBit_roundLsb, Nat.testBit_shiftLeft, Nat.testBit_shiftLeft]
  simp

/-- Reversal turns a left-shift round into a right-shift round (R156). -/
theorem reverseBits_roundMsb (p rw x : Nat) :
    reverseBits (roundMsb p rw x) rw = roundLsb (reverseBits p rw) (reverseBits x rw) := by
  apply Nat.eq_of_testBit_eq; intro i
  rw [testBit_reverseBits, testBit_roundMsb, testBit_roundLsb, testBit_reverseBits, testBit_reverseBits,
    testBit_reverseBits]
  by_cases h : i < rw
  · have h0 : 0 < rw := by omega
    have e0 : rw - 1 - 0 = rw - 1 := by omega
    have h1 : rw - 1 - i < rw := by omega
    by_cases h2 : i + 1 < rw
    · have e1 : rw - 1 - i - 1 = rw - 1 - (i + 1) := by omega
      simp [h, h0, h1, h2, e1, show 1 ≤ rw - 1 - i by omega]
    · simp [h, h0, h1, h2, show ¬ 1 ≤ rw - 1 - i by omega]
  · simp [h, show ¬ i + 1 < rw by omega]

/-! ### Loops -/

theorem rounds_xor (round : Nat → Nat) (h : ∀ a b, round (a ^^^ b) = round a ^^^ round b) (a b n : Nat) :
    rounds round (a ^^^ b) n = rounds round a n ^^^ rounds round b n := by
  induction n with
  | zero => rfl
  | succ n ih => simp only [rounds, ih, h]

theorem rounds_add (round : Nat → Nat) (x m n : Nat) :
    rounds round x (m + n) = rounds round (rounds round x m) n := by
  induction n with
  | zero => rfl
  | succ n ih => rw [← Nat.add_assoc]; simp only [rounds, ih]

theorem rounds_succ' (round : Nat → Nat) (x n : Nat) :
    rounds round x (n + 1) = rounds round (round x) n := by
  rw [Nat.add_comm, rounds_add]; rfl

theorem rounds_inv (P : Nat → Prop) (round : Nat → Nat) (h : ∀ x, P x → P (round x)) (x n : Nat) (hx : P x) :
    P (rounds round x n) := by
  induction n with
  | zero => exact hx
  | succ n ih => exact h _ ih

theorem rounds_msb_lt (p rw x n : Nat) (hx : x < 2 ^ rw) : rounds (roundMsb p rw) x n < 2 ^ rw :=
  rounds_inv (· < 2 ^ rw) _ (fun _ _ => roundMsb_lt p rw _) x n hx

theorem reverseBits_rounds (p rw x n : Nat) :
    reverseBits (rounds (roundMsb p rw) x n) rw =
      rounds (roundLsb (reverseBits p rw)) (reverseBits x rw) n := by
  induction n with
  | zero => rfl
  | succ n ih =>
    simp only [rounds]
    rw [reverseBits_roundMsb, ih]

/-- A property of the register that every byte keeps holds after the loop. -/
theorem forLoop_inv (P : Nat → Prop) (body : Nat → Nat → Nat) (h : ∀ k x, P x → P (body k x))
    (x n : Nat) (hx : P x) : P (forLoop body x n) := by
  induction n with
  | zero => exact hx
  | succ n ih => exact h _ _ ih

/-- Two loops whose bodies keep a relation end in related registers. -/
theorem forLoop_rel (R : Nat → Nat → Prop) (f g : Nat → Nat → Nat)
    (n : Nat) (h : ∀ k x y, k < n → R x y → R (f k x) (g k y)) (x y : Nat) (hxy : R x y) :
    R (forLoop f x n) (forLoop g y n) := by
  induction n with
  | zero => exact hxy
  | succ n ih =>
    exact h _ _ _ (Nat.lt_succ_self n) (ih fun k x y hk hR => h k x y (Nat.lt_succ_of_lt hk) hR)

theorem forLoop_add (body : Nat → Nat → Nat) (x m n : Nat) :
    forLoop body x (m + n) = forLoop (fun k => body (m + k)) (forLoop body x m) n := by
  induction n with
  | zero => rfl
  | succ n ih => rw [← Nat.add_assoc]; simp only [forLoop, ih]

theorem forLoop_congr (f g : Nat → Nat → Nat) (x n : Nat) (h : ∀ k, k < n → f k = g k) :
    forLoop f x n = forLoop g x n := by
  induction n with
  | zero => rfl
  | succ n ih =>
    simp only [forLoop]
    rw [ih fun k hk => h k (Nat.lt_succ_of_lt hk), h n (Nat.lt_succ_self n)]

end Sys2Proof.Machine
end

