-- ==== Sys2Proof/Laws/State.lean ====
section
/-! SUPPORT. What each shared update of `State` does to each field; every lemma holds by `rfl`. -/

namespace Sys2Proof.Machine

/-! ### `raiseError` -/

@[simp] theorem State.raiseError_status (e : Err) (s : State) : (s.raiseError e).status = { s.status with done := false, err := true, estk := true, rv := false } := rfl
@[simp] theorem State.raiseError_errcode (e : Err) (s : State) : (s.raiseError e).errcode = e.code := rfl
@[simp] theorem State.raiseError_params (e : Err) (s : State) : (s.raiseError e).params = s.params := rfl
@[simp] theorem State.raiseError_opa (e : Err) (s : State) : (s.raiseError e).opa = s.opa := rfl
@[simp] theorem State.raiseError_seedovr (e : Err) (s : State) : (s.raiseError e).seedovr = s.seedovr := rfl
@[simp] theorem State.raiseError_dlen (e : Err) (s : State) : (s.raiseError e).dlen = s.dlen := rfl
@[simp] theorem State.raiseError_start (e : Err) (s : State) : (s.raiseError e).start = s.start := rfl
@[simp] theorem State.raiseError_length (e : Err) (s : State) : (s.raiseError e).length = s.length := rfl
@[simp] theorem State.raiseError_result (e : Err) (s : State) : (s.raiseError e).result = 0#64 := rfl
@[simp] theorem State.raiseError_engine (e : Err) (s : State) : (s.raiseError e).engine = s.engine := rfl
@[simp] theorem State.raiseError_tableInfo (e : Err) (s : State) : (s.raiseError e).tableInfo = s.tableInfo := rfl
@[simp] theorem State.raiseError_table (e : Err) (s : State) : (s.raiseError e).table = s.table := rfl
@[simp] theorem State.raiseError_data (e : Err) (s : State) : (s.raiseError e).data = s.data := rfl
@[simp] theorem State.raiseError_draws (e : Err) (s : State) : (s.raiseError e).draws = s.draws := rfl
@[simp] theorem State.raiseError_script (e : Err) (s : State) : (s.raiseError e).script = s.script := rfl
@[simp] theorem State.raiseError_reads (e : Err) (s : State) : (s.raiseError e).reads = s.reads := rfl

/-! ### `complete` -/

@[simp] theorem State.complete_status (s : State) : (s.complete).status = { s.status with done := true, err := false } := rfl
@[simp] theorem State.complete_errcode (s : State) : (s.complete).errcode = 0#8 := rfl
@[simp] theorem State.complete_params (s : State) : (s.complete).params = s.params := rfl
@[simp] theorem State.complete_opa (s : State) : (s.complete).opa = s.opa := rfl
@[simp] theorem State.complete_seedovr (s : State) : (s.complete).seedovr = s.seedovr := rfl
@[simp] theorem State.complete_dlen (s : State) : (s.complete).dlen = s.dlen := rfl
@[simp] theorem State.complete_start (s : State) : (s.complete).start = s.start := rfl
@[simp] theorem State.complete_length (s : State) : (s.complete).length = s.length := rfl
@[simp] theorem State.complete_result (s : State) : (s.complete).result = s.result := rfl
@[simp] theorem State.complete_engine (s : State) : (s.complete).engine = s.engine := rfl
@[simp] theorem State.complete_tableInfo (s : State) : (s.complete).tableInfo = s.tableInfo := rfl
@[simp] theorem State.complete_table (s : State) : (s.complete).table = s.table := rfl
@[simp] theorem State.complete_data (s : State) : (s.complete).data = s.data := rfl
@[simp] theorem State.complete_draws (s : State) : (s.complete).draws = s.draws := rfl
@[simp] theorem State.complete_script (s : State) : (s.complete).script = s.script := rfl
@[simp] theorem State.complete_reads (s : State) : (s.complete).reads = s.reads := rfl

/-! ### `setResult` -/

@[simp] theorem State.setResult_status (r : Nat) (s : State) : (s.setResult r).status = { s.status with rv := true } := rfl
@[simp] theorem State.setResult_errcode (r : Nat) (s : State) : (s.setResult r).errcode = s.errcode := rfl
@[simp] theorem State.setResult_params (r : Nat) (s : State) : (s.setResult r).params = s.params := rfl
@[simp] theorem State.setResult_opa (r : Nat) (s : State) : (s.setResult r).opa = s.opa := rfl
@[simp] theorem State.setResult_seedovr (r : Nat) (s : State) : (s.setResult r).seedovr = s.seedovr := rfl
@[simp] theorem State.setResult_dlen (r : Nat) (s : State) : (s.setResult r).dlen = s.dlen := rfl
@[simp] theorem State.setResult_start (r : Nat) (s : State) : (s.setResult r).start = s.start := rfl
@[simp] theorem State.setResult_length (r : Nat) (s : State) : (s.setResult r).length = s.length := rfl
@[simp] theorem State.setResult_result (r : Nat) (s : State) : (s.setResult r).result = BitVec.ofNat 64 r := rfl
@[simp] theorem State.setResult_engine (r : Nat) (s : State) : (s.setResult r).engine = s.engine := rfl
@[simp] theorem State.setResult_tableInfo (r : Nat) (s : State) : (s.setResult r).tableInfo = s.tableInfo := rfl
@[simp] theorem State.setResult_table (r : Nat) (s : State) : (s.setResult r).table = s.table := rfl
@[simp] theorem State.setResult_data (r : Nat) (s : State) : (s.setResult r).data = s.data := rfl
@[simp] theorem State.setResult_draws (r : Nat) (s : State) : (s.setResult r).draws = s.draws := rfl
@[simp] theorem State.setResult_script (r : Nat) (s : State) : (s.setResult r).script = s.script := rfl
@[simp] theorem State.setResult_reads (r : Nat) (s : State) : (s.setResult r).reads = s.reads := rfl

/-! ### `writeData` -/

@[simp] theorem State.writeData_status (a : Nat) (v : Byte) (s : State) : (s.writeData a v).status = s.status := rfl
@[simp] theorem State.writeData_errcode (a : Nat) (v : Byte) (s : State) : (s.writeData a v).errcode = s.errcode := rfl
@[simp] theorem State.writeData_params (a : Nat) (v : Byte) (s : State) : (s.writeData a v).params = s.params := rfl
@[simp] theorem State.writeData_opa (a : Nat) (v : Byte) (s : State) : (s.writeData a v).opa = s.opa := rfl
@[simp] theorem State.writeData_seedovr (a : Nat) (v : Byte) (s : State) : (s.writeData a v).seedovr = s.seedovr := rfl
@[simp] theorem State.writeData_dlen (a : Nat) (v : Byte) (s : State) : (s.writeData a v).dlen = s.dlen := rfl
@[simp] theorem State.writeData_start (a : Nat) (v : Byte) (s : State) : (s.writeData a v).start = s.start := rfl
@[simp] theorem State.writeData_length (a : Nat) (v : Byte) (s : State) : (s.writeData a v).length = s.length := rfl
@[simp] theorem State.writeData_result (a : Nat) (v : Byte) (s : State) : (s.writeData a v).result = s.result := rfl
@[simp] theorem State.writeData_engine (a : Nat) (v : Byte) (s : State) : (s.writeData a v).engine = s.engine := rfl
@[simp] theorem State.writeData_tableInfo (a : Nat) (v : Byte) (s : State) : (s.writeData a v).tableInfo = s.tableInfo := rfl
@[simp] theorem State.writeData_table (a : Nat) (v : Byte) (s : State) : (s.writeData a v).table = s.table := rfl
@[simp] theorem State.writeData_data (a : Nat) (v : Byte) (s : State) : (s.writeData a v).data = Memory.write s.data a v := rfl
@[simp] theorem State.writeData_draws (a : Nat) (v : Byte) (s : State) : (s.writeData a v).draws = s.draws := rfl
@[simp] theorem State.writeData_script (a : Nat) (v : Byte) (s : State) : (s.writeData a v).script = s.script := rfl
@[simp] theorem State.writeData_reads (a : Nat) (v : Byte) (s : State) : (s.writeData a v).reads = s.reads := rfl

/-! ### `writeTable` -/

@[simp] theorem State.writeTable_status (c : Conv) (p w : Word) (t : List Nat) (s : State) : (s.writeTable c p w t).status = { s.status with tv := true } := rfl
@[simp] theorem State.writeTable_errcode (c : Conv) (p w : Word) (t : List Nat) (s : State) : (s.writeTable c p w t).errcode = s.errcode := rfl
@[simp] theorem State.writeTable_params (c : Conv) (p w : Word) (t : List Nat) (s : State) : (s.writeTable c p w t).params = s.params := rfl
@[simp] theorem State.writeTable_opa (c : Conv) (p w : Word) (t : List Nat) (s : State) : (s.writeTable c p w t).opa = s.opa := rfl
@[simp] theorem State.writeTable_seedovr (c : Conv) (p w : Word) (t : List Nat) (s : State) : (s.writeTable c p w t).seedovr = s.seedovr := rfl
@[simp] theorem State.writeTable_dlen (c : Conv) (p w : Word) (t : List Nat) (s : State) : (s.writeTable c p w t).dlen = s.dlen := rfl
@[simp] theorem State.writeTable_start (c : Conv) (p w : Word) (t : List Nat) (s : State) : (s.writeTable c p w t).start = s.start := rfl
@[simp] theorem State.writeTable_length (c : Conv) (p w : Word) (t : List Nat) (s : State) : (s.writeTable c p w t).length = s.length := rfl
@[simp] theorem State.writeTable_result (c : Conv) (p w : Word) (t : List Nat) (s : State) : (s.writeTable c p w t).result = s.result := rfl
@[simp] theorem State.writeTable_engine (c : Conv) (p w : Word) (t : List Nat) (s : State) : (s.writeTable c p w t).engine = s.engine := rfl
@[simp] theorem State.writeTable_tableInfo (c : Conv) (p w : Word) (t : List Nat) (s : State) : (s.writeTable c p w t).tableInfo = ⟨w.setWidth 8, c, p⟩ := rfl
@[simp] theorem State.writeTable_table (c : Conv) (p w : Word) (t : List Nat) (s : State) : (s.writeTable c p w t).table = t.map (BitVec.ofNat 64) := rfl
@[simp] theorem State.writeTable_data (c : Conv) (p w : Word) (t : List Nat) (s : State) : (s.writeTable c p w t).data = s.data := rfl
@[simp] theorem State.writeTable_draws (c : Conv) (p w : Word) (t : List Nat) (s : State) : (s.writeTable c p w t).draws = s.draws := rfl
@[simp] theorem State.writeTable_script (c : Conv) (p w : Word) (t : List Nat) (s : State) : (s.writeTable c p w t).script = s.script := rfl
@[simp] theorem State.writeTable_reads (c : Conv) (p w : Word) (t : List Nat) (s : State) : (s.writeTable c p w t).reads = s.reads := rfl

/-! ### `invalidateEngine` -/

@[simp] theorem State.invalidateEngine_status (s : State) : (s.invalidateEngine).status = { s.status with ev := s.status.ev && !s.engine.kind.usesTable } := rfl
@[simp] theorem State.invalidateEngine_errcode (s : State) : (s.invalidateEngine).errcode = s.errcode := rfl
@[simp] theorem State.invalidateEngine_params (s : State) : (s.invalidateEngine).params = s.params := rfl
@[simp] theorem State.invalidateEngine_opa (s : State) : (s.invalidateEngine).opa = s.opa := rfl
@[simp] theorem State.invalidateEngine_seedovr (s : State) : (s.invalidateEngine).seedovr = s.seedovr := rfl
@[simp] theorem State.invalidateEngine_dlen (s : State) : (s.invalidateEngine).dlen = s.dlen := rfl
@[simp] theorem State.invalidateEngine_start (s : State) : (s.invalidateEngine).start = s.start := rfl
@[simp] theorem State.invalidateEngine_length (s : State) : (s.invalidateEngine).length = s.length := rfl
@[simp] theorem State.invalidateEngine_result (s : State) : (s.invalidateEngine).result = s.result := rfl
@[simp] theorem State.invalidateEngine_engine (s : State) : (s.invalidateEngine).engine = s.engine := rfl
@[simp] theorem State.invalidateEngine_tableInfo (s : State) : (s.invalidateEngine).tableInfo = s.tableInfo := rfl
@[simp] theorem State.invalidateEngine_table (s : State) : (s.invalidateEngine).table = s.table := rfl
@[simp] theorem State.invalidateEngine_data (s : State) : (s.invalidateEngine).data = s.data := rfl
@[simp] theorem State.invalidateEngine_draws (s : State) : (s.invalidateEngine).draws = s.draws := rfl
@[simp] theorem State.invalidateEngine_script (s : State) : (s.invalidateEngine).script = s.script := rfl
@[simp] theorem State.invalidateEngine_reads (s : State) : (s.invalidateEngine).reads = s.reads := rfl

/-! ### `latchEngine` -/

@[simp] theorem State.latchEngine_status (k : Kind) (s : State) : (s.latchEngine k).status = { s.status with ev := true } := rfl
@[simp] theorem State.latchEngine_errcode (k : Kind) (s : State) : (s.latchEngine k).errcode = s.errcode := rfl
@[simp] theorem State.latchEngine_params (k : Kind) (s : State) : (s.latchEngine k).params = s.params := rfl
@[simp] theorem State.latchEngine_opa (k : Kind) (s : State) : (s.latchEngine k).opa = s.opa := rfl
@[simp] theorem State.latchEngine_seedovr (k : Kind) (s : State) : (s.latchEngine k).seedovr = s.seedovr := rfl
@[simp] theorem State.latchEngine_dlen (k : Kind) (s : State) : (s.latchEngine k).dlen = s.dlen := rfl
@[simp] theorem State.latchEngine_start (k : Kind) (s : State) : (s.latchEngine k).start = s.start := rfl
@[simp] theorem State.latchEngine_length (k : Kind) (s : State) : (s.latchEngine k).length = s.length := rfl
@[simp] theorem State.latchEngine_result (k : Kind) (s : State) : (s.latchEngine k).result = s.result := rfl
@[simp] theorem State.latchEngine_engine (k : Kind) (s : State) : (s.latchEngine k).engine = s.params.latch k := rfl
@[simp] theorem State.latchEngine_tableInfo (k : Kind) (s : State) : (s.latchEngine k).tableInfo = s.tableInfo := rfl
@[simp] theorem State.latchEngine_table (k : Kind) (s : State) : (s.latchEngine k).table = s.table := rfl
@[simp] theorem State.latchEngine_data (k : Kind) (s : State) : (s.latchEngine k).data = s.data := rfl
@[simp] theorem State.latchEngine_draws (k : Kind) (s : State) : (s.latchEngine k).draws = s.draws := rfl
@[simp] theorem State.latchEngine_script (k : Kind) (s : State) : (s.latchEngine k).script = s.script := rfl
@[simp] theorem State.latchEngine_reads (k : Kind) (s : State) : (s.latchEngine k).reads = s.reads := rfl

/-! ### `clearSticky` -/

@[simp] theorem State.clearSticky_status (s : State) : (s.clearSticky).status = { s.status with estk := false } := rfl
@[simp] theorem State.clearSticky_errcode (s : State) : (s.clearSticky).errcode = s.errcode := rfl
@[simp] theorem State.clearSticky_params (s : State) : (s.clearSticky).params = s.params := rfl
@[simp] theorem State.clearSticky_opa (s : State) : (s.clearSticky).opa = s.opa := rfl
@[simp] theorem State.clearSticky_seedovr (s : State) : (s.clearSticky).seedovr = s.seedovr := rfl
@[simp] theorem State.clearSticky_dlen (s : State) : (s.clearSticky).dlen = s.dlen := rfl
@[simp] theorem State.clearSticky_start (s : State) : (s.clearSticky).start = s.start := rfl
@[simp] theorem State.clearSticky_length (s : State) : (s.clearSticky).length = s.length := rfl
@[simp] theorem State.clearSticky_result (s : State) : (s.clearSticky).result = s.result := rfl
@[simp] theorem State.clearSticky_engine (s : State) : (s.clearSticky).engine = s.engine := rfl
@[simp] theorem State.clearSticky_tableInfo (s : State) : (s.clearSticky).tableInfo = s.tableInfo := rfl
@[simp] theorem State.clearSticky_table (s : State) : (s.clearSticky).table = s.table := rfl
@[simp] theorem State.clearSticky_data (s : State) : (s.clearSticky).data = s.data := rfl
@[simp] theorem State.clearSticky_draws (s : State) : (s.clearSticky).draws = s.draws := rfl
@[simp] theorem State.clearSticky_script (s : State) : (s.clearSticky).script = s.script := rfl
@[simp] theorem State.clearSticky_reads (s : State) : (s.clearSticky).reads = s.reads := rfl

/-! ### `advance` -/

@[simp] theorem State.advance_status (r : List Input) (s : State) : (s.advance r).status = s.status := rfl
@[simp] theorem State.advance_errcode (r : List Input) (s : State) : (s.advance r).errcode = s.errcode := rfl
@[simp] theorem State.advance_params (r : List Input) (s : State) : (s.advance r).params = s.params := rfl
@[simp] theorem State.advance_opa (r : List Input) (s : State) : (s.advance r).opa = s.opa := rfl
@[simp] theorem State.advance_seedovr (r : List Input) (s : State) : (s.advance r).seedovr = s.seedovr := rfl
@[simp] theorem State.advance_dlen (r : List Input) (s : State) : (s.advance r).dlen = s.dlen := rfl
@[simp] theorem State.advance_start (r : List Input) (s : State) : (s.advance r).start = s.start := rfl
@[simp] theorem State.advance_length (r : List Input) (s : State) : (s.advance r).length = s.length := rfl
@[simp] theorem State.advance_result (r : List Input) (s : State) : (s.advance r).result = s.result := rfl
@[simp] theorem State.advance_engine (r : List Input) (s : State) : (s.advance r).engine = s.engine := rfl
@[simp] theorem State.advance_tableInfo (r : List Input) (s : State) : (s.advance r).tableInfo = s.tableInfo := rfl
@[simp] theorem State.advance_table (r : List Input) (s : State) : (s.advance r).table = s.table := rfl
@[simp] theorem State.advance_data (r : List Input) (s : State) : (s.advance r).data = s.data := rfl
@[simp] theorem State.advance_draws (r : List Input) (s : State) : (s.advance r).draws = s.draws := rfl
@[simp] theorem State.advance_script (r : List Input) (s : State) : (s.advance r).script = r := rfl
@[simp] theorem State.advance_reads (r : List Input) (s : State) : (s.advance r).reads = s.reads := rfl

/-! ### `observe` -/

@[simp] theorem State.observe_status (v : Word) (s : State) : (s.observe v).status = s.status := rfl
@[simp] theorem State.observe_errcode (v : Word) (s : State) : (s.observe v).errcode = s.errcode := rfl
@[simp] theorem State.observe_params (v : Word) (s : State) : (s.observe v).params = s.params := rfl
@[simp] theorem State.observe_opa (v : Word) (s : State) : (s.observe v).opa = s.opa := rfl
@[simp] theorem State.observe_seedovr (v : Word) (s : State) : (s.observe v).seedovr = s.seedovr := rfl
@[simp] theorem State.observe_dlen (v : Word) (s : State) : (s.observe v).dlen = s.dlen := rfl
@[simp] theorem State.observe_start (v : Word) (s : State) : (s.observe v).start = s.start := rfl
@[simp] theorem State.observe_length (v : Word) (s : State) : (s.observe v).length = s.length := rfl
@[simp] theorem State.observe_result (v : Word) (s : State) : (s.observe v).result = s.result := rfl
@[simp] theorem State.observe_engine (v : Word) (s : State) : (s.observe v).engine = s.engine := rfl
@[simp] theorem State.observe_tableInfo (v : Word) (s : State) : (s.observe v).tableInfo = s.tableInfo := rfl
@[simp] theorem State.observe_table (v : Word) (s : State) : (s.observe v).table = s.table := rfl
@[simp] theorem State.observe_data (v : Word) (s : State) : (s.observe v).data = s.data := rfl
@[simp] theorem State.observe_draws (v : Word) (s : State) : (s.observe v).draws = s.draws := rfl
@[simp] theorem State.observe_script (v : Word) (s : State) : (s.observe v).script = s.script := rfl
@[simp] theorem State.observe_reads (v : Word) (s : State) : (s.observe v).reads = s.reads ++ [v] := rfl

/-! ### `toReset` -/

@[simp] theorem State.toReset_status (s : State) : (s.toReset).status = State.reset.status := rfl
@[simp] theorem State.toReset_errcode (s : State) : (s.toReset).errcode = State.reset.errcode := rfl
@[simp] theorem State.toReset_params (s : State) : (s.toReset).params = State.reset.params := rfl
@[simp] theorem State.toReset_opa (s : State) : (s.toReset).opa = State.reset.opa := rfl
@[simp] theorem State.toReset_seedovr (s : State) : (s.toReset).seedovr = State.reset.seedovr := rfl
@[simp] theorem State.toReset_dlen (s : State) : (s.toReset).dlen = State.reset.dlen := rfl
@[simp] theorem State.toReset_start (s : State) : (s.toReset).start = State.reset.start := rfl
@[simp] theorem State.toReset_length (s : State) : (s.toReset).length = State.reset.length := rfl
@[simp] theorem State.toReset_result (s : State) : (s.toReset).result = State.reset.result := rfl
@[simp] theorem State.toReset_engine (s : State) : (s.toReset).engine = State.reset.engine := rfl
@[simp] theorem State.toReset_tableInfo (s : State) : (s.toReset).tableInfo = State.reset.tableInfo := rfl
@[simp] theorem State.toReset_table (s : State) : (s.toReset).table = State.reset.table := rfl
@[simp] theorem State.toReset_data (s : State) : (s.toReset).data = State.reset.data := rfl
@[simp] theorem State.toReset_draws (s : State) : (s.toReset).draws = s.draws + 1 := rfl
@[simp] theorem State.toReset_script (s : State) : (s.toReset).script = s.script := rfl
@[simp] theorem State.toReset_reads (s : State) : (s.toReset).reads = s.reads := rfl

end Sys2Proof.Machine
end

