-- ==== Sys2Proof/Laws/Ops.lean ====
section
/-! SUPPORT. What the shared operations can do, said once: checks and error entry, the `DATA` memory and its canonical form, the host port, and one inversion lemma each for `exec` and `step`. -/

namespace Sys2Proof.Machine

/-! ### Checks -/

/-- The error of a failing check is one of the list's. -/
theorem firstFailing_mem {checks : List (Bool × Err)} {e : Err} (h : firstFailing checks = some e) :
    (true, e) ∈ checks := by
  induction checks with
  | nil => simp [firstFailing] at h
  | cons c rest ih =>
    obtain ⟨b, f⟩ := c
    cases b
    · exact List.mem_cons_of_mem _ (ih (by simpa [firstFailing] using h))
    · simp only [firstFailing, if_true, Option.some.injEq] at h
      simp [h]

/-- No check fails exactly when every check passes. -/
theorem firstFailing_none {checks : List (Bool × Err)} :
    firstFailing checks = none ↔ ∀ c ∈ checks, c.1 = false := by
  induction checks with
  | nil => simp [firstFailing]
  | cons c rest ih =>
    obtain ⟨b, f⟩ := c
    cases b <;> simp [firstFailing, ih]

theorem firstFailing_append (xs ys : List (Bool × Err)) :
    firstFailing (xs ++ ys) = (firstFailing xs).orElse fun _ => firstFailing ys := by
  induction xs with
  | nil => rfl
  | cons c rest ih =>
    obtain ⟨b, f⟩ := c
    cases b
    · simpa [firstFailing] using ih
    · simp [firstFailing]

theorem guarded_pass {checks : List (Bool × Err)} (s : State) (go : State → Out)
    (h : firstFailing checks = none) : s.guarded checks go = go s := by
  simp [State.guarded, h]

theorem guarded_fail {checks : List (Bool × Err)} {e : Err} (s : State) (go : State → Out)
    (h : firstFailing checks = some e) : s.guarded checks go = .next (s.raiseError e) := by
  simp [State.guarded, h]

/-- Everything a checked command can answer. -/
theorem guarded_next {checks : List (Bool × Err)} {s t : State} {go : State → Out}
    (h : s.guarded checks go = .next t) :
    (∃ e, firstFailing checks = some e ∧ t = s.raiseError e) ∨ (firstFailing checks = none ∧ go s = .next t) := by
  unfold State.guarded at h
  cases hc : firstFailing checks with
  | some e =>
    rw [hc] at h
    injection h with h
    exact .inl ⟨e, rfl, h.symm⟩
  | none =>
    rw [hc] at h
    exact .inr ⟨rfl, h⟩

/-- Everything a calculation can answer when it goes on. -/
theorem calculate_next {s t : State} {r : Except Err Nat} (h : s.calculate r = .next t) :
    s.engine.shiftsNegative = false ∧
      ((∃ v, r = .ok v ∧ t = (s.setResult v).complete) ∨ (∃ e, r = .error e ∧ t = s.raiseError e)) := by
  unfold State.calculate at h
  split at h
  · cases h
  · rename_i hn
    injection h with h
    refine ⟨by simpa using hn, ?_⟩
    cases r with
    | ok v => exact .inl ⟨v, rfl, h.symm⟩
    | error e => exact .inr ⟨e, rfl, h.symm⟩

/-! ### DATA -/

theorem Memory.lookup_write_same (m : Memory) (a : Nat) (v : Byte) :
    Memory.lookup (Memory.write m a v) a = some v := by
  induction m with
  | nil => simp [Memory.write, Memory.lookup]
  | cons c rest ih =>
    obtain ⟨x, b⟩ := c
    simp only [Memory.write]
    split
    · simp [Memory.lookup]
    · split
      · rename_i h; simp [Memory.lookup, h]
      · rename_i h; simp [Memory.lookup, ih, Ne.symm h]

theorem Memory.lookup_write_other (m : Memory) {a x : Nat} (v : Byte) (h : x ≠ a) :
    Memory.lookup (Memory.write m a v) x = Memory.lookup m x := by
  induction m with
  | nil => simp [Memory.write, Memory.lookup, h.symm]
  | cons c rest ih =>
    obtain ⟨y, b⟩ := c
    simp only [Memory.write]
    split
    · simp [Memory.lookup, h.symm]
    · split
      · rename_i hy; simp [Memory.lookup, ← hy, h.symm]
      · simp [Memory.lookup, ih]

theorem Memory.mem_write {m : Memory} {a : Nat} {v : Byte} {c : Host.Cell} (h : c ∈ Memory.write m a v) :
    c.1 = a ∨ c ∈ m := by
  induction m with
  | nil => simp [Memory.write] at h; simp [h]
  | cons d rest ih =>
    obtain ⟨y, b⟩ := d
    simp only [Memory.write] at h
    split at h
    · rcases List.mem_cons.mp h with rfl | h
      · exact .inl rfl
      · exact .inr h
    · split at h
      · rename_i hy
        rcases List.mem_cons.mp h with rfl | h
        · exact .inl hy.symm
        · exact .inr (List.mem_cons_of_mem _ h)
      · rcases List.mem_cons.mp h with rfl | h
        · exact .inr (by simp)
        · rcases ih h with h | h
          · exact .inl h
          · exact .inr (List.mem_cons_of_mem _ h)

/-- A write keeps the canonical form. -/
theorem Memory.write_wf {m : Memory} (h : Memory.wf m) {a : Nat} (ha : a < Config.bufsz) (v : Byte) :
    Memory.wf (Memory.write m a v) := by
  refine ⟨?_, ?_⟩
  · have hp := h.1
    clear h
    induction m with
    | nil => simp [Memory.write]
    | cons d rest ih =>
      obtain ⟨y, b⟩ := d
      obtain ⟨h1, h2⟩ := List.pairwise_cons.mp hp
      simp only [Memory.write]
      split
      · rename_i hay
        refine List.pairwise_cons.mpr ⟨?_, hp⟩
        intro c hc
        rcases List.mem_cons.mp hc with rfl | hc
        · exact hay
        · exact lt_trans hay (h1 c hc)
      · split
        · exact List.pairwise_cons.mpr ⟨h1, h2⟩
        · rename_i h3 h4
          refine List.pairwise_cons.mpr ⟨?_, ih h2⟩
          intro c hc
          rcases Memory.mem_write hc with hc | hc
          · simp only [hc]; omega
          · exact h1 c hc
  · intro c hc
    rcases Memory.mem_write hc with hc | hc
    · omega
    · exact h.2 c hc

theorem State.dataByte_writeData_same (s : State) (a : Nat) (v : Byte) : (s.writeData a v).dataByte a = v := by
  simp [State.dataByte, Memory.lookup_write_same]

theorem State.dataByte_writeData_other (s : State) {a x : Nat} (v : Byte) (h : x ≠ a) :
    (s.writeData a v).dataByte x = s.dataByte x := by
  simp [State.dataByte, Memory.lookup_write_other _ v h]

/-! ### What a command can do -/

/-- `GENTAB` of a convention is the shared generator command. -/
theorem exec_gentab (c : Conv) (s : State) : exec c.gentab s = s.gentab c := by cases c <;> rfl

/-- `BUILD` of a kind is the shared construction command. -/
theorem exec_build (k : Kind) (s : State) : exec k.build s = s.build k := by cases k <;> rfl

/-- The state after a command that has not failed, command by command. -/
def CommandSucceeds (i : Instr) (s t : State) : Prop :=
  match i with
  | .rev n => 1 ≤ n ∧ n ≤ Config.wmax ∧ t = (s.setResult (reverseBits s.opa.toNat n)).complete
  | .gentabM => firstFailing (widthPolyChecks s.params) = none ∧ t = (s.generate .msb).invalidateEngine.complete
  | .gentabL => firstFailing (widthPolyChecks s.params) = none ∧ t = (s.generate .lsb).invalidateEngine.complete
  | .buildTlsb => firstFailing (commonChecks s.params ++ kindChecks .tlsb s.params) = none ∧ t = s.construct .tlsb
  | .buildTmsb => firstFailing (commonChecks s.params ++ kindChecks .tmsb s.params) = none ∧ t = s.construct .tmsb
  | .buildGmsb => firstFailing (commonChecks s.params ++ kindChecks .gmsb s.params) = none ∧ t = s.construct .gmsb
  | .buildGlsb => firstFailing (commonChecks s.params ++ kindChecks .glsb s.params) = none ∧ t = s.construct .glsb
  | .buildWin => firstFailing (commonChecks s.params ++ kindChecks .win s.params) = none ∧ t = s.construct .win
  | .buildAuto => firstFailing (commonChecks s.params) = none ∧ t = s.construct (autoKind s.params)
  | .calcBuffer so => firstFailing (s.calcChecks so) = none ∧ s.engine.shiftsNegative = false ∧
      ∃ v, s.runEngine (s.seed0 so) = .ok v ∧ t = (s.setResult v).complete
  | .calcWindow so dl => firstFailing (s.calcwChecks so) = none ∧ s.engine.shiftsNegative = false ∧
      ∃ v, calcWin s.engine s.dataByte s.dlen.toNat s.windowStart (s.windowLength dl) (s.seed0 so) = .ok v ∧
        t = (s.setResult v).complete
  | .clrerr => t = s.clearSticky.complete
  | .srst => t = s.toReset

/-- Everything a command can answer when it goes on: an error entry, or its own effect. -/
theorem exec_cases {i : Instr} {s t : State} (h : exec i s = .next t) :
    (∃ e, t = s.raiseError e) ∨ CommandSucceeds i s t := by
  cases i with
  | rev n =>
    simp only [exec, execRev] at h
    rcases guarded_next h with ⟨e, -, rfl⟩ | ⟨hc, hg⟩
    · exact .inl ⟨e, rfl⟩
    · injection hg with hg
      have := firstFailing_none.mp hc _ (List.mem_singleton.mpr rfl)
      simp only [Bool.or_eq_false_iff, beq_eq_false_iff_ne, decide_eq_false_iff_not, not_lt] at this
      exact .inr ⟨by omega, this.2, hg.symm⟩
  | gentabM =>
    simp only [exec, execGentabM, State.gentab] at h
    rcases guarded_next h with ⟨e, -, rfl⟩ | ⟨hc, hg⟩
    · exact .inl ⟨e, rfl⟩
    · injection hg with hg; exact .inr ⟨hc, hg.symm⟩
  | gentabL =>
    simp only [exec, execGentabL, State.gentab] at h
    rcases guarded_next h with ⟨e, -, rfl⟩ | ⟨hc, hg⟩
    · exact .inl ⟨e, rfl⟩
    · injection hg with hg; exact .inr ⟨hc, hg.symm⟩
  | buildTlsb =>
    simp only [exec, execBuildTlsb, State.build] at h
    rcases guarded_next h with ⟨e, -, rfl⟩ | ⟨hc, hg⟩
    · exact .inl ⟨e, rfl⟩
    · injection hg with hg; exact .inr ⟨hc, hg.symm⟩
  | buildTmsb =>
    simp only [exec, execBuildTmsb, State.build] at h
    rcases guarded_next h with ⟨e, -, rfl⟩ | ⟨hc, hg⟩
    · exact .inl ⟨e, rfl⟩
    · injection hg with hg; exact .inr ⟨hc, hg.symm⟩
  | buildGmsb =>
    simp only [exec, execBuildGmsb, State.build] at h
    rcases guarded_next h with ⟨e, -, rfl⟩ | ⟨hc, hg⟩
    · exact .inl ⟨e, rfl⟩
    · injection hg with hg; exact .inr ⟨hc, hg.symm⟩
  | buildGlsb =>
    simp only [exec, execBuildGlsb, State.build] at h
    rcases guarded_next h with ⟨e, -, rfl⟩ | ⟨hc, hg⟩
    · exact .inl ⟨e, rfl⟩
    · injection hg with hg; exact .inr ⟨hc, hg.symm⟩
  | buildWin =>
    simp only [exec, execBuildWin, State.build] at h
    rcases guarded_next h with ⟨e, -, rfl⟩ | ⟨hc, hg⟩
    · exact .inl ⟨e, rfl⟩
    · injection hg with hg; exact .inr ⟨hc, hg.symm⟩
  | buildAuto =>
    simp only [exec, execBuildAuto] at h
    rcases guarded_next h with ⟨e, -, rfl⟩ | ⟨hc, hg⟩
    · exact .inl ⟨e, rfl⟩
    · injection hg with hg; exact .inr ⟨hc, hg.symm⟩
  | calcBuffer so =>
    simp only [exec, execCalc] at h
    rcases guarded_next h with ⟨e, -, rfl⟩ | ⟨hc, hg⟩
    · exact .inl ⟨e, rfl⟩
    · obtain ⟨hn, ⟨v, hv, rfl⟩ | ⟨e, -, rfl⟩⟩ := calculate_next hg
      · exact .inr ⟨hc, hn, v, hv, rfl⟩
      · exact .inl ⟨e, rfl⟩
  | calcWindow so dl =>
    simp only [exec, execCalcw] at h
    rcases guarded_next h with ⟨e, -, rfl⟩ | ⟨hc, hg⟩
    · exact .inl ⟨e, rfl⟩
    · obtain ⟨hn, ⟨v, hv, rfl⟩ | ⟨e, -, rfl⟩⟩ := calculate_next hg
      · exact .inr ⟨hc, hn, v, hv, rfl⟩
      · exact .inl ⟨e, rfl⟩
  | clrerr => injection h with h; exact .inr h.symm
  | srst => injection h with h; exact .inr h.symm

/-- Everything a step can answer when it goes on: nothing to do, a command, a word that is no command, or a host operation. -/
theorem step_cases {s t : State} (h : step s = .next t) :
    (s.script = [] ∧ t = s) ∨
    ∃ i rest, s.script = i :: rest ∧
      ((∃ c j, i.commandValue = some c ∧ decode c = .ok j ∧ exec j (s.advance rest) = .next t) ∨
       (∃ c e, i.commandValue = some c ∧ decode c = .error e ∧ t = (s.advance rest).raiseError (Err.ofDecode e)) ∨
       (i.commandValue = none ∧ t = (s.advance rest).hostOperation i)) := by
  unfold step at h
  split at h
  · rename_i hs
    injection h with h
    exact .inl ⟨hs, h.symm⟩
  · rename_i i rest hs
    refine .inr ⟨i, rest, hs, ?_⟩
    split at h
    · rename_i c hc
      unfold runCommand at h
      split at h
      · rename_i j hj; exact .inl ⟨c, j, hc, hj, h⟩
      · rename_i e he
        injection h with h
        exact .inr (.inl ⟨c, e, hc, he, h.symm⟩)
    · rename_i hc
      injection h with h
      exact .inr (.inr ⟨hc, h.symm⟩)

/-- The input that issues a command is a write of `CMD`. -/
theorem commandValue_some {i : Input} {c : Word} (h : i.commandValue = some c) : i = .write .reg 2 c := by
  unfold Input.commandValue at h
  split at h
  · split at h
    · rename_i h2
      injection h with h
      rw [h2, h]
    · cases h
  all_goals cases h

/-- A step whose next input writes `CMD` runs the command or raises its decode error. -/
theorem step_command {s : State} {c : Word} {rest : List Input} (h : s.script = .write .reg 2 c :: rest) :
    step s = runCommand c (s.advance rest) := by
  simp [step, h, Input.commandValue]

end Sys2Proof.Machine
end

