-- ==== Sys2Proof/Laws/PerInstr.lean ====
section
/-! SUPPORT. Laws made per command: the word of a well-formed command lies in its row of the opcode table (30_encoding.md R80, R83). -/

namespace Sys2Proof.Laws.CommandWord

/-- The encoding has bits 63..18 zero and meets the exact match and mask of a row of R83 that makes the same command of it. -/
def Statement (i : Instr) : Prop :=
  i.wellFormed = true → (encode i).toNat < 2 ^ 18 ∧
    ∃ r ∈ opcodeTable, (encode i).setWidth 32 &&& r.mask = r.pattern ∧ r.command ((encode i).setWidth 32) = i

/-- The words of `REV`, all 256 values of `ARG`, checked by evaluation. -/
theorem rev_words : ∀ n < 256, (encode (.rev n)).toNat < 2 ^ 18 ∧
    (encode (.rev n)).setWidth 32 &&& 0xFFFF00FF#32 = 0x00000001#32 ∧ argField ((encode (.rev n)).setWidth 32) = n := by
  decide +kernel

theorem rev (n : Nat) : Statement (.rev n) := by
  intro h
  obtain ⟨h1, h2, h3⟩ := rev_words n (by simpa [Instr.wellFormed] using h)
  exact ⟨h1, opcodeTable[0], by simp [opcodeTable], h2, congrArg Instr.rev h3⟩

theorem gentabM : Statement .gentabM := fun _ => ⟨by decide, opcodeTable[1], by simp [opcodeTable], by decide, rfl⟩
theorem gentabL : Statement .gentabL := fun _ => ⟨by decide, opcodeTable[2], by simp [opcodeTable], by decide, rfl⟩
theorem buildTlsb : Statement .buildTlsb := fun _ => ⟨by decide, opcodeTable[3], by simp [opcodeTable], by decide, rfl⟩
theorem buildTmsb : Statement .buildTmsb := fun _ => ⟨by decide, opcodeTable[4], by simp [opcodeTable], by decide, rfl⟩
theorem buildGmsb : Statement .buildGmsb := fun _ => ⟨by decide, opcodeTable[5], by simp [opcodeTable], by decide, rfl⟩
theorem buildGlsb : Statement .buildGlsb := fun _ => ⟨by decide, opcodeTable[6], by simp [opcodeTable], by decide, rfl⟩
theorem buildWin : Statement .buildWin := fun _ => ⟨by decide, opcodeTable[7], by simp [opcodeTable], by decide, rfl⟩
theorem buildAuto : Statement .buildAuto := fun _ => ⟨by decide, opcodeTable[8], by simp [opcodeTable], by decide, rfl⟩

theorem calcBuffer (so : Bool) : Statement (.calcBuffer so) := by
  intro _
  refine ⟨?_, opcodeTable[9], by simp [opcodeTable], ?_, ?_⟩ <;> cases so <;> decide

theorem calcWindow (so dl : Bool) : Statement (.calcWindow so dl) := by
  intro _
  refine ⟨?_, opcodeTable[10], by simp [opcodeTable], ?_, ?_⟩ <;> cases so <;> cases dl <;> decide

theorem clrerr : Statement .clrerr := fun _ => ⟨by decide, opcodeTable[11], by simp [opcodeTable], by decide, rfl⟩
theorem srst : Statement .srst := fun _ => ⟨by decide, opcodeTable[12], by simp [opcodeTable], by decide, rfl⟩

end Sys2Proof.Laws.CommandWord
end

