-- ==== Sys2Proof/Laws/Sound.lean ====
section
/-! SUPPORT. When the checks of a command pass, in arithmetic words, and what a construction then leaves: a well-built engine, its table, a sound state. -/

namespace Sys2Proof.Machine

/-- The generator's checks pass exactly on arguments it has a table for (R111). -/
theorem widthPolyChecks_pass {p : Params} : firstFailing (widthPolyChecks p) = none ↔
    1 ≤ p.width.toNat ∧ p.width.toNat ≤ 64 ∧ p.poly.toNat < 2 ^ p.width.toNat := by
  have hw : p.width ≠ 0#64 ↔ 1 ≤ p.width.toNat := by
    rw [ne_eq, ← BitVec.toNat_inj]
    simp; omega
  rw [firstFailing_none]
  simp only [widthPolyChecks, List.forall_mem_cons, beq_eq_false_iff_ne, decide_eq_false_iff_not, not_lt,
    Bool.not_eq_false', fits_iff, hw]
  exact ⟨fun ⟨a, b, c, _⟩ => ⟨a, b, c⟩, fun ⟨a, b, c⟩ => ⟨a, b, c, by simp⟩⟩

/-- The common checks pass exactly on a legal Parameter Set (R26, R121). -/
theorem commonChecks_pass {p : Params} : firstFailing (commonChecks p) = none ↔ p.Legal := by
  have happ : firstFailing (commonChecks p) = none ↔ firstFailing (widthPolyChecks p) = none ∧
      p.seed.toNat < 2 ^ p.width.toNat ∧ p.xorout.toNat < 2 ^ p.width.toNat := by
    simp only [firstFailing_none, commonChecks, List.forall_mem_append, List.forall_mem_cons, Bool.not_eq_false', fits_iff]
    simp
  rw [happ, widthPolyChecks_pass]
  exact ⟨fun ⟨⟨a, b, c⟩, d, e⟩ => ⟨a, b, c, d, e⟩, fun ⟨a, b, c, d, e⟩ => ⟨⟨a, b, c⟩, d, e⟩⟩

/-- The kind that `BUILD.AUTO` chooses passes its own checks (R129). -/
theorem kindChecks_autoKind (p : Params) : firstFailing (kindChecks (autoKind p) p) = none := by
  rw [firstFailing_none]
  unfold autoKind
  split
  · split
    · rename_i h; simp [kindChecks, h]
    · split
      · rename_i h hw; simpa [kindChecks, h] using hw
      · simp [kindChecks]
  · simp [kindChecks]

/-- What a construction latches is well built (R122, R123). -/
theorem Params.latch_wellBuilt {p : Params} {k : Kind} (hp : p.Legal) (hk : firstFailing (kindChecks k p) = none) :
    (p.latch k).WellBuilt := by
  have hle := hp.width_le
  unfold Config.wmax at hle
  have hw : (p.latch k).width.toNat = p.width.toNat := by
    simp only [Params.latch, BitVec.toNat_setWidth]
    exact Nat.mod_eq_of_lt (by omega)
  have hpow : 2 ^ p.width.toNat ≤ 2 ^ 64 := Nat.pow_le_pow_right (by omega) hle
  rw [firstFailing_none] at hk
  refine ⟨hw ▸ hp.width_pos, hw ▸ hp.width_le, hw ▸ hp.poly_lt, hw ▸ hp.seed_lt, hw ▸ hp.xorout_lt, ?_, rfl, ?_, ?_, ?_⟩
  · rw [hw]
    simp only [Params.latch, BitVec.toNat_ofNat, mask]
    exact Nat.mod_eq_of_lt (by have := Nat.two_pow_pos p.width.toNat; omega)
  · rw [hw]
    simp only [Params.latch, BitVec.toNat_ofNat]
    exact Nat.mod_eq_of_lt (by unfold lshiftOf; have := hp.width_pos; split <;> omega)
  · rintro (rfl : k = .tlsb)
    simpa [kindChecks, Params.latch] using hk
  · rintro (rfl : k = .tmsb)
    rw [hw]
    simpa [kindChecks, Params.latch] using hk

/-- What a generation leaves in `TABLE`, `TCFG`, `TPOLY` (R114, R115). -/
theorem State.generate_table {s : State} {conv : Conv} (h : firstFailing (widthPolyChecks s.params) = none) :
    let t := s.generate conv
    1 ≤ t.tableInfo.width.toNat ∧ t.tableInfo.width.toNat ≤ Config.wmax ∧
    t.tableInfo.tpoly.toNat < 2 ^ t.tableInfo.width.toNat ∧
    t.table = (genTable t.tableInfo.conv t.tableInfo.tpoly.toNat t.tableInfo.width.toNat).map (BitVec.ofNat 64) := by
  obtain ⟨h1, h2, h3⟩ := widthPolyChecks_pass.mp h
  have hw : (s.params.width.setWidth 8).toNat = s.params.width.toNat := by
    rw [BitVec.toNat_setWidth]
    exact Nat.mod_eq_of_lt (by omega)
  simp only [State.generate, State.writeTable, hw]
  exact ⟨h1, h2, h3, trivial⟩

/-- A successful construction leads from a sound state to a sound state. -/
theorem State.construct_inv {s : State} {k : Kind} (h : s.Inv) (hp : s.params.Legal)
    (hk : firstFailing (kindChecks k s.params) = none) : (s.construct k).Inv := by
  have hb := Params.latch_wellBuilt hp hk
  have hg := widthPolyChecks_pass.mpr ⟨hp.width_pos, hp.width_le, hp.poly_lt⟩
  have hi : ((s.latchEngine k).buildTable k).Inv := by
    cases k with
    | tlsb =>
      exact ⟨h.1, fun _ => hb, fun _ _ => ⟨rfl, rfl⟩, fun _ => State.generate_table (s := s.latchEngine .tlsb) hg,
        by simp [State.buildTable, State.generate, State.writeTable], h.6, h.7, h.8, h.9, h.10⟩
    | tmsb =>
      exact ⟨h.1, fun _ => hb, fun _ _ => ⟨rfl, rfl⟩, fun _ => State.generate_table (s := s.latchEngine .tmsb) hg,
        by simp [State.buildTable, State.generate, State.writeTable], h.6, h.7, h.8, h.9, h.10⟩
    | gmsb =>
      exact ⟨h.1, fun _ => hb, by simp [State.buildTable, State.latchEngine, Params.latch, Kind.usesTable],
        h.4, h.5, h.6, h.7, h.8, h.9, h.10⟩
    | glsb =>
      exact ⟨h.1, fun _ => hb, by simp [State.buildTable, State.latchEngine, Params.latch, Kind.usesTable],
        h.4, h.5, h.6, h.7, h.8, h.9, h.10⟩
    | win =>
      exact ⟨h.1, fun _ => hb, by simp [State.buildTable, State.latchEngine, Params.latch, Kind.usesTable],
        h.4, h.5, h.6, h.7, h.8, h.9, h.10⟩
  unfold State.construct
  refine ⟨hi.1, hi.2, hi.3, hi.4, hi.5, hi.6, ?_, ?_, ?_, ?_⟩ <;> simp

end Sys2Proof.Machine
end

