-- ==== Sys2Proof/Laws/Window.lean ====
section
/-! SUPPORT. The small laws of the independent descriptions of a window (45_windowed_engine.md R170, R171). -/

namespace Sys2Proof.Machine

/-- The bit-serial CRC of two pieces is that of the second piece from the first one's register (R170). -/
theorem bitCrc_append (poly w r : Nat) (a b : List Bool) :
    bitCrc poly w r (a ++ b) = bitCrc poly w (bitCrc poly w r a) b := List.foldl_append

@[simp] theorem bitCrc_nil (poly w r : Nat) : bitCrc poly w r [] = r := rfl

@[simp] theorem reflectedByte_length (rd : Nat → Byte) (start length b : Nat) :
    (reflectedByte rd start length b).length = 8 := by simp [reflectedByte]

@[simp] theorem mixFront_length (pending bits : List Bool) : (mixFront pending bits).length = bits.length := by
  simp [mixFront]; omega

/-- Bits that come after the mixed ones enter unchanged. -/
theorem mixFront_append {pending a : List Bool} (h : pending.length ≤ a.length) (b : List Bool) :
    mixFront pending (a ++ b) = mixFront pending a ++ b := by
  have e : pending ++ List.replicate ((a ++ b).length - pending.length) false =
      (pending ++ List.replicate (a.length - pending.length) false) ++ List.replicate b.length false := by
    rw [List.append_assoc, List.replicate_append_replicate, List.length_append]
    congr 2
    omega
  rw [mixFront, e, List.zipWith_append (by simp; omega)]
  congr 1
  exact List.ext_getElem (by simp) (by intro i _ _; simp)

/-- With nothing pending the bits enter unchanged. -/
@[simp] theorem mixFront_nil (bits : List Bool) : mixFront [] bits = bits := by
  simpa [mixFront] using mixFront_append (pending := []) (a := []) (Nat.le_refl 0) bits

/-- A window of no bits leaves the register alone (R167). -/
@[simp] theorem reflectedRegister_zero (poly w seed0 : Nat) (rd : Nat → Byte) (start : Nat) :
    reflectedRegister poly w seed0 rd start 0 = seed0 := rfl

end Sys2Proof.Machine
end

