-- ==== Sys2Proof/Tests/Slice0.lean ====
section
/-! SUPPORT. Tests: words and values that the spec gives, and for every obligation with hypotheses a named state that meets them. -/

namespace Sys2Proof.Tests

open Sys2Proof Sys2Proof.Machine

/-! ### States -/

/-- CRC-16/CCITT-FALSE (45_windowed_engine.md R168). -/
def ccitt : Params := ⟨0x1021, 16, 0xFFFF, 0, false, false⟩

/-- CRC-16/KERMIT (45_windowed_engine.md R171). -/
def kermit : Params := ⟨0x1021, 16, 0, 0, true, true⟩

/-- CRC-32 (43_table_engines.md R141). -/
def crc32 : Params := ⟨0x04C11DB7, 32, 0xFFFFFFFF, 0xFFFFFFFF, true, true⟩

/-- CRC-5/USB (44_generic_engines.md R151). -/
def usb : Params := ⟨0x05, 5, 0x1F, 0x1F, true, true⟩

/-- The residue example (45_windowed_engine.md R171). -/
def narrow : Params := ⟨0x3, 3, 0x7, 0, true, true⟩

/-- CRC-12/UMTS (43_table_engines.md R145). -/
def umts : Params := ⟨0x80F, 12, 0, 0, false, true⟩

/-- After reset, with a staged Parameter Set. -/
def staged (p : Params) : State := { State.reset with params := p }

/-- After reset, with an engine built. -/
def built (k : Kind) (p : Params) : State := (staged p).construct k

/-- The ASCII bytes "123456789" from address 0. -/
def digits : Memory :=
  [(0, 0x31#8), (1, 0x32#8), (2, 0x33#8), (3, 0x34#8), (4, 0x35#8), (5, 0x36#8), (6, 0x37#8), (7, 0x38#8), (8, 0x39#8)]

/-- An engine built, a message of `n` bytes. -/
def ready (k : Kind) (p : Params) (m : Memory) (n : Nat) : State :=
  { built k p with data := m, dlen := BitVec.ofNat 64 n }

/-- A windowed engine built, a message of `n` bytes and a window. -/
def windowed (p : Params) (m : Memory) (n : Nat) (start length : Int) : State :=
  { ready .win p m n with start := BitVec.ofInt 64 start, length := BitVec.ofInt 64 length }

/-- `STATUS`, `ERRCODE` and `RESULT` after a step, as a host reads them. -/
def outcome : Out → Option (Nat × Nat × Nat)
  | .next t => some ((t.portRead .reg 3).toNat, (t.portRead .reg 4).toNat, (t.portRead .reg 0x18).toNat)
  | .fault _ => none
  | .refused _ => none

/-- A register after a step, as a host reads it. -/
def register (n : Nat) : Out → Option Nat
  | .next t => some (t.portRead .reg n).toNat
  | .fault _ => none
  | .refused _ => none

/-- Table entries after a step, as a host reads them. -/
def entries (is : List Nat) : Out → Option (List Nat)
  | .next t => some (is.map fun i => (t.portRead .tab i).toNat)
  | .fault _ => none
  | .refused _ => none

/-! ### Well-formedness, decoding, the opcode table -/

theorem test_ill_formed_rev_is_refused : Instr.wellFormed (.rev 256) = false ∧ Instr.wellFormed (.rev 255) = true := by
  decide

/-- R88's own words. -/
theorem test_decode_words :
    decode 0x00002001#64 = .ok (.rev 32) ∧ decode 0x00010020#64 = .ok (.calcBuffer true) ∧
    decode 0x00010021#64 = .ok (.calcWindow true false) ∧ decode 0x00020021#64 = .ok (.calcWindow false true) := by
  decide

/-- `OP` bits 7..0 of each family, from R82. -/
theorem test_decode_families :
    decode 0b00000011#64 = .ok .gentabL ∧ decode 0b00010001#64 = .ok .buildTmsb ∧
    decode 0b00011111#64 = .ok .buildAuto ∧ decode 0b00110000#64 = .ok .clrerr ∧ decode 0b00111111#64 = .ok .srst := by
  decide

/-- R86: the all-zero word, R187's `0x00010099`, `DL` on `CALC`, `ARG` outside `REV`, a high half. -/
theorem test_illegal_words :
    decode 0#64 = .error .illOp ∧ decode 0x00010099#64 = .error .illOp ∧ decode 0x00020020#64 = .error .illField ∧
    decode 0x00000102#64 = .error .illField ∧ decode 0x100000030#64 = .error .illField := by
  decide

/-- R83: the thirteen patterns are pairwise disjoint because their `OP` bytes differ. -/
theorem test_rows_disjoint :
    (opcodeTable.map fun r => r.pattern.toNat % 256).Nodup ∧
    (opcodeTable.all fun r => r.mask.toNat % 256 == 0xFF) = true := by
  decide

/-- R102's listing of the byte-reversal ROM, row by row. -/
def brevListing : List Nat :=
  [0x00, 0x80, 0x40, 0xC0, 0x20, 0xA0, 0x60, 0xE0, 0x10, 0x90, 0x50, 0xD0, 0x30, 0xB0, 0x70, 0xF0]
  ++ [0x08, 0x88, 0x48, 0xC8, 0x28, 0xA8, 0x68, 0xE8, 0x18, 0x98, 0x58, 0xD8, 0x38, 0xB8, 0x78, 0xF8]
  ++ [0x04, 0x84, 0x44, 0xC4, 0x24, 0xA4, 0x64, 0xE4, 0x14, 0x94, 0x54, 0xD4, 0x34, 0xB4, 0x74, 0xF4]
  ++ [0x0C, 0x8C, 0x4C, 0xCC, 0x2C, 0xAC, 0x6C, 0xEC, 0x1C, 0x9C, 0x5C, 0xDC, 0x3C, 0xBC, 0x7C, 0xFC]
  ++ [0x02, 0x82, 0x42, 0xC2, 0x22, 0xA2, 0x62, 0xE2, 0x12, 0x92, 0x52, 0xD2, 0x32, 0xB2, 0x72, 0xF2]
  ++ [0x0A, 0x8A, 0x4A, 0xCA, 0x2A, 0xAA, 0x6A, 0xEA, 0x1A, 0x9A, 0x5A, 0xDA, 0x3A, 0xBA, 0x7A, 0xFA]
  ++ [0x06, 0x86, 0x46, 0xC6, 0x26, 0xA6, 0x66, 0xE6, 0x16, 0x96, 0x56, 0xD6, 0x36, 0xB6, 0x76, 0xF6]
  ++ [0x0E, 0x8E, 0x4E, 0xCE, 0x2E, 0xAE, 0x6E, 0xEE, 0x1E, 0x9E, 0x5E, 0xDE, 0x3E, 0xBE, 0x7E, 0xFE]
  ++ [0x01, 0x81, 0x41, 0xC1, 0x21, 0xA1, 0x61, 0xE1, 0x11, 0x91, 0x51, 0xD1, 0x31, 0xB1, 0x71, 0xF1]
  ++ [0x09, 0x89, 0x49, 0xC9, 0x29, 0xA9, 0x69, 0xE9, 0x19, 0x99, 0x59, 0xD9, 0x39, 0xB9, 0x79, 0xF9]
  ++ [0x05, 0x85, 0x45, 0xC5, 0x25, 0xA5, 0x65, 0xE5, 0x15, 0x95, 0x55, 0xD5, 0x35, 0xB5, 0x75, 0xF5]
  ++ [0x0D, 0x8D, 0x4D, 0xCD, 0x2D, 0xAD, 0x6D, 0xED, 0x1D, 0x9D, 0x5D, 0xDD, 0x3D, 0xBD, 0x7D, 0xFD]
  ++ [0x03, 0x83, 0x43, 0xC3, 0x23, 0xA3, 0x63, 0xE3, 0x13, 0x93, 0x53, 0xD3, 0x33, 0xB3, 0x73, 0xF3]
  ++ [0x0B, 0x8B, 0x4B, 0xCB, 0x2B, 0xAB, 0x6B, 0xEB, 0x1B, 0x9B, 0x5B, 0xDB, 0x3B, 0xBB, 0x7B, 0xFB]
  ++ [0x07, 0x87, 0x47, 0xC7, 0x27, 0xA7, 0x67, 0xE7, 0x17, 0x97, 0x57, 0xD7, 0x37, 0xB7, 0x77, 0xF7]
  ++ [0x0F, 0x8F, 0x4F, 0xCF, 0x2F, 0xAF, 0x6F, 0xEF, 0x1F, 0x9F, 0x5F, 0xDF, 0x3F, 0xBF, 0x7F, 0xFF]

theorem test_brev_listing : ∀ i < 256, brevListing[i]? = some (brev (BitVec.ofNat 8 i)).toNat := by
  decide +kernel

/-! ### One step per command, on the spec's own examples -/

/-- R103's example and R101's. -/
theorem test_rev :
    outcome (exec (.rev 32) { State.reset with opa := 0x04C11DB7#64 }) = some (0x05, 0, 0xEDB88320) ∧
    outcome (exec (.rev 12) { State.reset with opa := 0xABC#64 }) = some (0x05, 0, 0x3D5) := by
  decide +kernel

/-- R103: `NBITS` outside 1..64. -/
theorem test_rev_nbits : outcome (exec (.rev 65) State.reset) = some (0x22, 0x42, 0) := by decide +kernel

/-- The examples of R114 and R119. -/
theorem test_gentabM :
    entries [1, 2, 255] (exec .gentabM (staged crc32)) = some [0x04C11DB7, 0x09823B6E, 0xB1F740B4] ∧
    entries [0, 1, 128, 255] (exec .gentabM (staged usb)) = some [0, 0x05, 0x0E, 0x14] := by
  decide +kernel

/-- R116: the command takes a table engine's table away, and no other engine. -/
theorem test_gentabM_invalidates :
    register 3 (exec .gentabM (built .tlsb crc32)) = some 0x11 ∧ register 3 (exec .gentabM (built .win ccitt)) = some 0x19 := by
  decide +kernel

/-- The examples of R115 and R119. -/
theorem test_gentabL :
    entries [1, 128, 255] (exec .gentabL (staged crc32)) = some [0x77073096, 0xEDB88320, 0x2D02EF8D] ∧
    entries [1, 128, 255] (exec .gentabL (staged usb)) = some [0x0E, 0x14, 0x05] ∧
    register 0x28 (exec .gentabL (staged usb)) = some 0x305 := by
  decide +kernel

/-- R124's example. -/
theorem test_buildTlsb :
    register 0x24 (exec .buildTlsb (staged crc32)) = some 0x320 ∧
    register 0x23 (exec .buildTlsb (staged crc32)) = some 0xFFFFFFFF ∧
    entries [128] (exec .buildTlsb (staged crc32)) = some [0xEDB88320] := by
  decide +kernel

/-- R28: a `BUILD` straight after reset fails. -/
theorem test_build_after_reset : outcome (exec .buildTlsb State.reset) = some (0x22, 0x20, 0) := by decide +kernel

/-- R125's example. -/
theorem test_buildTmsb :
    register 0x24 (exec .buildTmsb (staged ccitt)) = some 0x810 ∧
    register 0x23 (exec .buildTmsb (staged ccitt)) = some 0xFFFF ∧
    entries [1] (exec .buildTmsb (staged ccitt)) = some [0x1021] := by
  decide +kernel

/-- R126's example. -/
theorem test_buildGmsb :
    register 0x24 (exec .buildGmsb (staged usb)) = some 0x31305 ∧ register 0x23 (exec .buildGmsb (staged usb)) = some 0x1F := by
  decide +kernel

/-- R127's example. -/
theorem test_buildGlsb : register 0x24 (exec .buildGlsb (staged umts)) = some 0x1E0C := by decide +kernel

/-- R128's example. -/
theorem test_buildWin : register 0x24 (exec .buildWin (staged ccitt)) = some 0x2010 := by decide +kernel

/-- R129's example: unequal flags choose `KIND = 2`. -/
theorem test_buildAuto : register 0x24 (exec .buildAuto (staged umts)) = some 0x160C := by decide +kernel

/-- The known answers of R130, R143, R151, R154. -/
theorem test_calc_engines :
    outcome (exec (.calcBuffer false) (ready .tlsb crc32 digits 9)) = some (0x1D, 0, 0xCBF43926) ∧
    outcome (exec (.calcBuffer false) (ready .tmsb ccitt digits 3)) = some (0x1D, 0, 0x5BCE) ∧
    outcome (exec (.calcBuffer false) (ready .gmsb usb digits 1)) = some (0x0D, 0, 0x1C) ∧
    outcome (exec (.calcBuffer false) (ready .glsb kermit digits 1)) = some (0x0D, 0, 0x200A) := by
  decide +kernel

/-- R157 and R169: the seed override, and the windowed engine over the whole buffer. -/
theorem test_calc_override_and_window :
    outcome (exec (.calcBuffer true) { ready .gmsb ccitt digits 9 with seedovr := 0x1D0F#64 }) = some (0x0D, 0, 0xE5CC) ∧
    outcome (exec (.calcBuffer false) (ready .win ccitt digits 9)) = some (0x0D, 0, 0x29B1) := by
  decide +kernel

/-- R168's worked examples B and C, and R171's unaligned one. -/
theorem test_calcw_partial :
    outcome (exec (.calcWindow false false) (windowed ccitt digits 9 3 10)) = some (0x0D, 0, 0xEBAC) ∧
    outcome (exec (.calcWindow false false) (windowed ccitt digits 9 4 4)) = some (0x0D, 0, 0x1E3E) ∧
    outcome (exec (.calcWindow false false) (windowed kermit digits 9 3 10)) = some (0x0D, 0, 0x31C1) := by
  decide +kernel

/-- R166, R171: the residue example fails on `FF` and passes on `A5`; R190: `START = -1`. -/
theorem test_calcw_errors :
    outcome (exec (.calcWindow false false) (windowed narrow [(0, 0xFF#8)] 1 4 4)) = some (0x2A, 0x30, 0) ∧
    outcome (exec (.calcWindow false false) (windowed narrow [(0, 0xA5#8)] 1 4 4)) = some (0x0D, 0, 4) ∧
    outcome (exec (.calcWindow false false) (windowed ccitt digits 9 (-1) 8)) = some (0x2A, 0x10, 0) := by
  decide +kernel

/-- R180's example: `STATUS` goes from `0x2A` to `0x09`. -/
theorem test_clrerr :
    outcome (exec .clrerr ((windowed ccitt digits 9 0 73).raiseError .rngEndHigh)) = some (0x09, 0, 0) := by
  decide +kernel

/-- R181's example. -/
theorem test_srst :
    register 3 (exec .srst (ready .tlsb crc32 digits 9)) = some 0 ∧
    register 0x24 (exec .srst (ready .tlsb crc32 digits 9)) = some 0 ∧
    register 9 (exec .srst (ready .tlsb crc32 digits 9)) = some 0 ∧
    register 0 (exec .srst (ready .tlsb crc32 digits 9)) = some 0x43524301 := by
  decide +kernel

/-- A command word placed for the next step runs: `REV 3` of 5 is 5 (R103). -/
theorem test_placed_word_runs :
    outcome (step (State.withFetchWord { State.reset with opa := 5#64 } 32 0x00000301)) = some (0x05, 0, 5) := by
  decide +kernel

/-! ### Witnesses: concrete states that meet the hypotheses of the obligations

`witness_<Name>` meets all hypotheses of `Obligations.<Name>` together, clause by clause where it has several. -/

theorem ccitt_legal : ccitt.Legal := by constructor <;> decide

theorem crc32_legal : crc32.Legal := by constructor <;> decide

theorem usb_legal : usb.Legal := by constructor <;> decide

theorem narrow_legal : narrow.Legal := by constructor <;> decide

/-- CRC-8 with the widest legal values of its width, the smallest width of kind TMSB. -/
def eight : Params := ⟨0xFF, 8, 0xFF, 0xFF, false, true⟩

theorem eight_legal : eight.Legal := by constructor <;> decide

/-- The widest legal Parameter Set. -/
def widest : Params := ⟨0xFFFFFFFFFFFFFFFF, 64, 0xFFFFFFFFFFFFFFFF, 0xFFFFFFFFFFFFFFFF, false, false⟩

theorem widest_legal : widest.Legal := by constructor <;> decide +kernel

/-- The narrowest legal Parameter Set. -/
def narrowest : Params := ⟨1, 1, 1, 1, true, false⟩

theorem narrowest_legal : narrowest.Legal := by constructor <;> decide

theorem staged_sound (p : Params) : (staged p).Inv := by
  constructor <;> simp [staged, State.reset, Memory.wf]

theorem ready_sound {k : Kind} {p : Params} {m : Memory} (hp : p.Legal) (hk : firstFailing (kindChecks k p) = none)
    (hm : Memory.wf m) (n : Nat) : (ready k p m n).Inv :=
  have h := State.construct_inv (staged_sound p) hp hk
  ⟨hm, h.2, h.3, h.4, h.5, h.6, h.7, h.8, h.9, h.10⟩

theorem windowed_sound {p : Params} {m : Memory} (hp : p.Legal) (hm : Memory.wf m) (n : Nat) (start length : Int) :
    (windowed p m n start length).Inv :=
  have h := ready_sound (k := .win) hp rfl hm n
  ⟨hm, h.2, h.3, h.4, h.5, h.6, h.7, h.8, h.9, h.10⟩

theorem digits_wf : Memory.wf digits := by decide

/-- A sound state whose host has one more input. -/
def given (s : State) (i : Input) : State := { s with script := [i] }

/-- `REV 255`'s word: the widest operand. -/
theorem witness_DecodeAndEncodeAgree : decode 0x0000FF01#64 = .ok (.rev 255) ∧
    Instr.wellFormed (.rev 255) = true ∧ encode (.rev 255) = 0x0000FF01#64 := by decide

/-- One state for each clause: opcode 0 with the other bits set, the lowest reserved bit, the highest bit of `CMD`, a word with every free bit set. -/
theorem witness_IllegalCommandWordsAreRefusedInOrder :
    (given State.reset (.write .reg 2 0xFFFFFFFFFFFFFF00#64)).script = .write .reg 2 0xFFFFFFFFFFFFFF00#64 :: [] ∧
    (0xFFFFFFFFFFFFFF00#64).toNat % 256 = 0x00 ∧
    (0x0000000000040021#64).toNat / 2 ^ 18 ≠ 0 ∧ (0x8000000000000001#64).toNat / 2 ^ 18 ≠ 0 ∧
    (0x0000000000030021#64).toNat / 2 ^ 18 = 0 ∧ (0x0000000000030021#64).toNat / 2 ^ 8 % 256 = 0 ∧
    (0x0000000000030021#64).toNat % 256 = 0x21 := by
  refine ⟨rfl, ?_⟩
  decide

theorem witness_StepRunsTheDecodedCommand :
    (given State.reset (.write .reg 2 0x00002001#64)).script = .write .reg 2 0x00002001#64 :: [] ∧
    decode 0x00002001#64 = .ok (.rev 32) := ⟨rfl, by decide⟩

theorem witness_PlacedCommandWordRunsNext : decodeTableWord 32 0x00030021 = some (.calcWindow true true) := by decide

theorem witness_HostReadOnlyObserves :
    (given State.reset (.read .tab 255)).script = .read .tab 255 :: [] ∧
    (given State.reset (.read .data 4095)).script = .read .data 4095 :: [] := ⟨rfl, rfl⟩

/-- One access for each clause, at the first meaningless address of its space; the highest address that stores. -/
theorem witness_MeaninglessAccessesAreIgnored :
    (given State.reset (.write .reg 0x03 7#64)).script = .write .reg 0x03 7#64 :: [] ∧
    (given State.reset (.write .reg 0x3F 7#64)).script = .write .reg 0x3F 7#64 :: [] ∧ 0x3F < 0x40 ∧
    (given State.reset (.write .data 4096 7#64)).script = .write .data 4096 7#64 :: [] ∧
    (given State.reset (.write .tab 0 7#64)).script = .write .tab 0 7#64 :: [] ∧
    (given State.reset (.write .data 4095 0x1FF#64)).script = .write .data 4095 0x1FF#64 :: [] :=
  ⟨rfl, rfl, by decide, rfl, rfl, rfl⟩

theorem witness_NumbersAboveTheMapAreUnimplemented :
    (given State.reset (.write .reg 0x40 7#64)).script = .write .reg 0x40 7#64 :: [] ∧
    (given State.reset (.read .reg 0x40)).script = .read .reg 0x40 :: [] ∧ 0x40 ≤ 0x40 := ⟨rfl, rfl, by decide⟩

theorem witness_RwRegisterReadsBackTheLastWrite :
    (given State.reset (.write .reg 0x0C 0xFFFFFFFFFFFFFFFF#64)).script = .write .reg 0x0C 0xFFFFFFFFFFFFFFFF#64 :: [] ∧
    (given State.reset (.write .reg 0x12 0x8000000000000000#64)).script = .write .reg 0x12 0x8000000000000000#64 :: [] :=
  ⟨rfl, rfl⟩

theorem witness_DataWriteStoresOneByte :
    (given State.reset (.write .data 4095 0x1FF#64)).script = .write .data 4095 0x1FF#64 :: [] ∧ 4095 < 4096 ∧
    Memory.wf (given State.reset (.write .data 4095 0x1FF#64)).data := ⟨rfl, by decide, by decide⟩

theorem witness_IdleBlockKeepsItsState : State.reset.script = [] := rfl

/-- A sound state whose step answers a next state: a `CALC` on a built engine. -/
theorem witness_EveryStepKeepsTheStateSound :
    (given (ready .tmsb ccitt digits 9) (.write .reg 2 0x20#64)).Inv ∧
    ∃ t, step (given (ready .tmsb ccitt digits 9) (.write .reg 2 0x20#64)) = .next t :=
  have h := ready_sound (k := .tmsb) ccitt_legal (by decide) digits_wf 9
  ⟨⟨h.1, h.2, h.3, h.4, h.5, h.6, h.7, h.8, h.9, h.10⟩, _, rfl⟩

theorem witness_SoundBlockIsNeverStuck : (ready .tlsb crc32 digits 9).Inv :=
  ready_sound crc32_legal (by decide) digits_wf 9

theorem witness_RevReversesTheLowBits : (1 ≤ 1 ∧ 1 ≤ 64) ∧ (1 ≤ 64 ∧ 64 ≤ 64) := by decide

theorem witness_RevRefusesIllegalBitCounts : (0 = 0 ∨ 64 < 0) ∧ (65 = 0 ∨ 64 < 65) ∧ (255 = 0 ∨ 64 < 255) := by decide

theorem witness_ReversalIsAnInvolution : (1 ≤ 1 ∧ 1 ≤ 64) ∧ (1 ≤ 64 ∧ 64 ≤ 64) := by decide

theorem witness_ByteReversalTableRealisesReversal : (1 ≤ 1 ∧ 1 ≤ 64) ∧ (1 ≤ 64 ∧ 64 ≤ 64) := by decide

/-- The narrowest and the widest width, with the largest polynomial of each. -/
theorem witness_GentabWritesTheTable :
    (1 ≤ (staged narrowest).params.width.toNat ∧ (staged narrowest).params.width.toNat ≤ 64 ∧
      (staged narrowest).params.poly.toNat < 2 ^ (staged narrowest).params.width.toNat) ∧
    (1 ≤ (staged widest).params.width.toNat ∧ (staged widest).params.width.toNat ≤ 64 ∧
      (staged widest).params.poly.toNat < 2 ^ (staged widest).params.width.toNat) := by decide +kernel

/-- One state for each check, at its boundary. -/
theorem witness_GentabChecksItsArgumentsInOrder :
    State.reset.params.width.toNat = 0 ∧
    64 < (staged { crc32 with width := 65#64 }).params.width.toNat ∧
    (1 ≤ (staged { eight with poly := 0x100#64 }).params.width.toNat ∧
      (staged { eight with poly := 0x100#64 }).params.width.toNat ≤ 64 ∧
      2 ^ (staged { eight with poly := 0x100#64 }).params.width.toNat ≤
        (staged { eight with poly := 0x100#64 }).params.poly.toNat) ∧
    (1 ≤ (staged { eight with poly := 0#64 }).params.width.toNat ∧
      (staged { eight with poly := 0#64 }).params.width.toNat ≤ 64 ∧
      (staged { eight with poly := 0#64 }).params.poly.toNat < 2 ^ (staged { eight with poly := 0#64 }).params.width.toNat ∧
      (staged { eight with poly := 0#64 }).params.poly = 0#64 ∧ 255 < 256) := by decide

theorem witness_TableEntriesAreEightRounds :
    (1 ≤ 1 ∧ 1 ≤ 64 ∧ 1 < 2 ^ 1 ∧ 255 < 256) ∧ (1 ≤ 64 ∧ 64 ≤ 64 ∧ 2 ^ 64 - 1 < 2 ^ 64 ∧ 0 < 256) := by decide

theorem witness_ValidTableIsXorLinear : (ready .tlsb crc32 digits 9).Inv ∧ (ready .tlsb crc32 digits 9).status.tv = true ∧
    255 < 256 := ⟨ready_sound crc32_legal (by decide) digits_wf 9, rfl, by decide⟩

/-- One Parameter Set for each common check, each passing the checks before it. -/
theorem witness_BuildChecksTheParameterSetInOrder :
    let p := (staged { eight with poly := 0x100#64 }).params
    let q := (staged { eight with seed := 0x100#64 }).params
    let r := (staged { eight with xorout := 0x100#64 }).params
    Instr.isBuild .buildAuto = true ∧
    State.reset.params.width.toNat = 0 ∧ 64 < (staged { ccitt with width := 65#64 }).params.width.toNat ∧
    (1 ≤ p.width.toNat ∧ p.width.toNat ≤ 64 ∧ 2 ^ p.width.toNat ≤ p.poly.toNat) ∧
    (1 ≤ q.width.toNat ∧ q.width.toNat ≤ 64 ∧ q.poly.toNat < 2 ^ q.width.toNat ∧ 2 ^ q.width.toNat ≤ q.seed.toNat) ∧
    (1 ≤ r.width.toNat ∧ r.width.toNat ≤ 64 ∧ r.poly.toNat < 2 ^ r.width.toNat ∧ r.seed.toNat < 2 ^ r.width.toNat ∧
      2 ^ r.width.toNat ≤ r.xorout.toNat) := by decide

/-- `REFIN = 0` for TLSB, `REFIN = 1` for TMSB, `WIDTH = 7` for TMSB. -/
theorem witness_TableKindsCheckTheirConvention :
    ((staged ccitt).params.Legal ∧ (staged ccitt).params.refin = false) ∧
    ((staged crc32).params.Legal ∧ (staged crc32).params.refin = true) ∧
    ((staged ⟨0x09, 7, 0, 0, false, false⟩).params.Legal ∧
      (staged ⟨0x09, 7, 0, 0, false, false⟩).params.refin = false ∧
      (staged ⟨0x09, 7, 0, 0, false, false⟩).params.width.toNat < 8) ∧
    ((staged eight).params.Legal ∧ (staged eight).params.refin = false ∧ 8 ≤ (staged eight).params.width.toNat) ∧
    (Kind.gmsb = .gmsb ∨ Kind.gmsb = .glsb ∨ Kind.gmsb = .win) :=
  ⟨⟨ccitt_legal, rfl⟩, ⟨crc32_legal, rfl⟩, ⟨by constructor <;> decide, rfl, by decide⟩,
    ⟨by constructor <;> decide, rfl, by decide⟩, .inl rfl⟩

theorem witness_BitByBitBuildsLatchTheParameterSet : (staged narrowest).params.Legal ∧ (staged widest).params.Legal ∧
    Kind.usesTable .gmsb = false ∧ Kind.usesTable .glsb = false ∧ Kind.usesTable .win = false :=
  ⟨narrowest_legal, widest_legal, rfl, rfl, rfl⟩

theorem witness_TableBuildsLatchAndGenerate :
    ((staged narrowest).params.Legal ∧ (staged narrowest).params.refin = true) ∧
    ((staged eight).params.Legal ∧ (staged eight).params.refin = false ∧ 8 ≤ (staged eight).params.width.toNat) :=
  ⟨⟨narrowest_legal, rfl⟩, eight_legal, rfl, by decide⟩

/-- Each of the three kinds that the factory chooses. -/
theorem witness_AutoBuildSelectsTheKind :
    (crc32.Legal ∧ crc32.refin = true ∧ crc32.refout = true) ∧
    (ccitt.Legal ∧ ccitt.refin = false ∧ ccitt.refout = false ∧ 8 ≤ ccitt.width.toNat) ∧
    (eight.Legal ∧ eight.refin ≠ eight.refout) :=
  ⟨⟨crc32_legal, rfl, rfl⟩, ⟨ccitt_legal, rfl, rfl, by decide⟩, eight_legal, by decide⟩

theorem witness_BuiltTableIsTheGeneratedTable :
    (∃ t u, exec .buildTlsb (staged crc32) = .next t ∧ t.status.done = true ∧ exec .gentabL (staged crc32) = .next u) ∧
    (∃ t u, exec .buildTmsb (staged ccitt) = .next t ∧ t.status.done = true ∧ exec .gentabM (staged ccitt) = .next u) :=
  ⟨⟨_, _, rfl, rfl, rfl⟩, ⟨_, _, rfl, rfl, rfl⟩⟩

/-- A well-built engine of a width below 8 and the largest initial value. -/
theorem witness_GenericEnginesAgree : (usb.latch .gmsb).WellBuilt ∧ 31 < 2 ^ (usb.latch .gmsb).width.toNat :=
  ⟨Params.latch_wellBuilt usb_legal rfl, by decide⟩

theorem witness_LsbTableEngineAgreesWithGeneric : (narrowest.latch .tlsb).WellBuilt ∧ (narrowest.latch .tlsb).refin = true :=
  ⟨Params.latch_wellBuilt narrowest_legal rfl, rfl⟩

theorem witness_MsbTableEngineAgreesWithGeneric : (eight.latch .tmsb).WellBuilt ∧ (eight.latch .tmsb).refin = false ∧
    8 ≤ (eight.latch .tmsb).width.toNat :=
  ⟨Params.latch_wellBuilt eight_legal (by decide), rfl, by decide⟩

theorem witness_AlignedWindowIsTheCrcOfItsBytes : (usb.latch .win).WellBuilt ∧ 31 < 2 ^ (usb.latch .win).width.toNat ∧
    8 < 9 ∧ 9 ≤ 9 :=
  ⟨Params.latch_wellBuilt usb_legal rfl, by decide, by decide, by decide⟩

theorem witness_SeedOverrideChainsPieces : (ccitt.latch .glsb).WellBuilt ∧ 0xFFFF < 2 ^ (ccitt.latch .glsb).width.toNat ∧
    (ccitt.latch .glsb).refout = false ∧ (ccitt.latch .glsb).exorout = 0#64 :=
  ⟨Params.latch_wellBuilt ccitt_legal rfl, by decide, rfl, rfl⟩

/-- The windowed engine on its shortest message, with an override at the top of its range; a table engine on a full buffer. -/
theorem witness_CalcReturnsTheCrcOnEveryEngine :
    let s : State := { ready .win usb digits 1 with seedovr := 31#64 }
    let t := ready .tlsb crc32 digits 4096
    (s.Inv ∧ s.status.ev = true ∧ s.dlen.toNat ≤ 4096 ∧ 1 ≤ s.dlen.toNat ∧ s.engine.kind.usesTable = false ∧ s.SeedFits true) ∧
    (t.Inv ∧ t.status.ev = true ∧ t.dlen.toNat ≤ 4096 ∧ t.engine.kind ≠ .win ∧ t.SeedFits false) := by
  have h := ready_sound (k := .win) usb_legal rfl digits_wf 1
  refine ⟨⟨⟨h.1, h.2, h.3, h.4, h.5, h.6, h.7, h.8, h.9, h.10⟩, rfl, by decide, by decide, rfl, fun _ => by decide⟩,
    ready_sound crc32_legal (by decide) digits_wf 4096, rfl, by decide, by decide, by simp [State.SeedFits]⟩

theorem witness_EmptyInputReturnsTheSeed :
    ((ready .gmsb usb digits 0).Inv ∧ (ready .gmsb usb digits 0).status.ev = true ∧ (ready .gmsb usb digits 0).dlen = 0#64 ∧
      (ready .gmsb usb digits 0).engine.kind ≠ .win ∧ (ready .gmsb usb digits 0).SeedFits true) ∧
    ((ready .win usb digits 0).Inv ∧ (ready .win usb digits 0).status.ev = true ∧ (ready .win usb digits 0).dlen = 0#64 ∧
      (ready .win usb digits 0).engine.kind = .win ∧ (ready .win usb digits 0).SeedFits true) :=
  ⟨⟨ready_sound usb_legal rfl digits_wf 0, rfl, rfl, by decide, fun _ => by decide⟩,
    ready_sound usb_legal rfl digits_wf 0, rfl, rfl, rfl, fun _ => by decide⟩

/-- One state for each check, at its boundary. -/
theorem witness_CalcChecksInOrder :
    let t := ready .tlsb crc32 digits 4097
    let u : State := { ready .glsb usb digits 4096 with seedovr := 32#64 }
    State.reset.status.ev = false ∧
    (t.status.ev = true ∧ t.engine.kind.usesTable = true) ∧
    (t.status.ev = true ∧ 4096 < t.dlen.toNat) ∧
    (u.status.ev = true ∧ u.engine.kind.usesTable = false ∧ u.dlen.toNat ≤ 4096 ∧
      2 ^ u.engine.width.toNat ≤ u.seedovr.toNat) :=
  ⟨rfl, ⟨rfl, rfl⟩, ⟨rfl, by decide⟩, rfl, rfl, by decide, by decide⟩

/-- The latched engine of each kind, with a width or an alignment that no `BUILD` leaves. -/
theorem witness_NegativeShiftStops :
    let engine := fun (k : Kind) => { ({ poly := 0x09, width := 7, seed := 0, xorout := 0, refin := false, refout := false } : Params).latch k
      with lshift := 0#3 }
    let state := fun (k : Kind) => { ready .win ⟨0x09, 7, 0, 0, false, false⟩ digits 9 with engine := engine k }
    (∀ k, (state k).status.ev = true ∧ (state k).dlen.toNat ≤ 4096 ∧ (state k).SeedFits true) ∧
    ((state .tmsb).engine.kind = .tmsb ∧ (state .tmsb).engine.width.toNat < 8) ∧
    ((state .gmsb).engine.kind = .gmsb ∧ (state .gmsb).engine.width.toNat + (state .gmsb).engine.lshift.toNat < 8 ∧
      (state .gmsb).engine.kind.usesTable = false) ∧
    ((state .win).engine.kind = .win ∧ (state .win).engine.width.toNat + (state .win).engine.lshift.toNat < 8) := by
  refine ⟨fun k => ⟨rfl, ?_, fun _ => ?_⟩, ⟨rfl, ?_⟩, ⟨rfl, ?_, rfl⟩, rfl, ?_⟩ <;> first | decide | (cases k <;> decide)

/-- One state for each front-end check, and one window for each range check on the nine bytes of R162's examples. -/
theorem witness_CalcwChecksInOrder :
    let big := ready .win ccitt digits 4097
    let wide : State := { ready .win ccitt digits 4096 with seedovr := 0x10000#64 }
    let window := fun start length => windowed ccitt digits 9 start length
    State.reset.status.ev = false ∧
    ((ready .gmsb ccitt digits 9).status.ev = true ∧ (ready .gmsb ccitt digits 9).engine.kind ≠ .win) ∧
    (big.status.ev = true ∧ big.engine.kind = .win ∧ 4096 < big.dlen.toNat) ∧
    (wide.status.ev = true ∧ wide.engine.kind = .win ∧ wide.dlen.toNat ≤ 4096 ∧
      2 ^ wide.engine.width.toNat ≤ wide.seedovr.toNat) ∧
    (∀ start length, (window start length).Inv ∧ (window start length).status.ev = true ∧
      (window start length).engine.kind = .win ∧ (window start length).dlen.toNat = 9 ∧ (window start length).SeedFits false) ∧
    (window (-1) 8).start.toInt < 0 ∧ 72 ≤ (window 72 0).start.toInt ∧
    (0 ≤ (window 0 (-1)).start.toInt ∧ (window 0 (-1)).start.toInt < 72 ∧ (window 0 (-1)).length.toInt < 0) ∧
    (0 ≤ (window 71 2).start.toInt ∧ (window 71 2).start.toInt < 72 ∧
      72 < (window 71 2).start.toInt + (window 71 2).length.toInt) := by
  refine ⟨rfl, ⟨rfl, by decide⟩, ⟨rfl, rfl, by decide⟩, ⟨rfl, rfl, by decide, by decide⟩,
    fun start length => ⟨windowed_sound ccitt_legal digits_wf 9 start length, rfl, rfl, rfl, by simp [State.SeedFits]⟩, ?_⟩
  decide

/-- R168's example B: a window unaligned at both ends. -/
theorem witness_UnreflectedWindowIsThePaddedBitCrc :
    (windowed ccitt digits 9 3 10).Inv ∧ (windowed ccitt digits 9 3 10).status.ev = true ∧
    (windowed ccitt digits 9 3 10).engine.kind = .win ∧ (windowed ccitt digits 9 3 10).dlen.toNat ≤ 4096 ∧
    (windowed ccitt digits 9 3 10).SeedFits false ∧ (windowed ccitt digits 9 3 10).WindowInRange false ∧
    (windowed ccitt digits 9 3 10).engine.refin = false := by
  refine ⟨windowed_sound ccitt_legal digits_wf 9 3 10, rfl, rfl, by decide, by simp [State.SeedFits], ?_, rfl⟩
  unfold State.WindowInRange
  decide

/-- R171's residue example, on the byte that leaves a residue and on the byte that does not. -/
theorem witness_ResidueAssertionFailsExactly :
    let s := windowed narrow [(0, 0xFF#8)] 1 4 4
    let t := windowed narrow [(0, 0xA5#8)] 1 4 4
    (s.Inv ∧ s.status.ev = true ∧ s.engine.kind = .win ∧ s.dlen.toNat ≤ 4096 ∧ s.SeedFits false ∧ s.WindowInRange false ∧
      residueLeft s.engine s.dataByte s.windowStart.toNat (s.windowLength false).toNat) ∧
    (t.Inv ∧ t.WindowInRange false ∧ ¬ residueLeft t.engine t.dataByte t.windowStart.toNat (t.windowLength false).toNat) := by
  refine ⟨⟨windowed_sound narrow_legal (by decide) 1 4 4, rfl, rfl, by decide, by simp [State.SeedFits], ?_, ?_⟩,
    windowed_sound narrow_legal (by decide) 1 4 4, ?_, ?_⟩
  · unfold State.WindowInRange; decide
  · exact ⟨rfl, by decide, by decide, by decide, 0, by decide, by decide +kernel⟩
  · unfold State.WindowInRange; decide
  · rintro ⟨-, -, -, -, j, hj, hb⟩
    have h1 : j < 1 := lt_of_lt_of_eq hj (by decide)
    obtain rfl : j = 0 := by omega
    exact absurd hb (by decide +kernel)

/-- The values R171 gives for the independent description of a reflected window: CRC-16/KERMIT at `(0, 4)`, `(3, 10)`, `(8, 16)`, and the three-bit example at `(4, 4)`; the parameter sets have `REFOUT = 1` and `xor_out = 0`. -/
theorem test_reflected_register_values :
    let rd := (ready .win ccitt digits 9).dataByte
    let rd' := (ready .win narrow [(0, 0xA5#8)] 1).dataByte
    reverseBits (reflectedRegister 0x1021 16 0 rd 0 4) 16 = 0x3183 ∧
    reverseBits (reflectedRegister 0x1021 16 0 rd 3 10) 16 = 0x31C1 ∧
    reverseBits (reflectedRegister 0x1021 16 0 rd 8 16) 16 = 0x860A ∧
    reverseBits (reflectedRegister 0x3 3 7 rd' 4 4) 3 = 0x4 := by
  decide +kernel

/-- R171's three-bit example: a window inside one byte, reflected, without a residue. -/
theorem witness_ReflectedWindowMixesItsPartialFirstByte :
    let t := windowed narrow [(0, 0xA5#8)] 1 4 4
    t.Inv ∧ t.status.ev = true ∧ t.engine.kind = .win ∧ t.dlen.toNat ≤ 4096 ∧ t.SeedFits false ∧ t.WindowInRange false ∧
      t.engine.refin = true ∧ ¬ residueLeft t.engine t.dataByte t.windowStart.toNat (t.windowLength false).toNat :=
  have h := witness_ResidueAssertionFailsExactly.2
  ⟨h.1, rfl, rfl, by decide, by simp [State.SeedFits], h.2.1, rfl, h.2.2⟩

theorem witness_AlignedStartIsTheCrcOfTheMaskedBytes : (usb.latch .win).WellBuilt ∧
    31 < 2 ^ (usb.latch .win).width.toNat ∧ 1 ≤ 1 ∧ 1 ≤ 8 ∧ 8 + 0 < 9 :=
  ⟨Params.latch_wellBuilt usb_legal rfl, by decide, by decide, by decide, by decide⟩

theorem witness_EmptyWindowReturnsTheSeed :
    (windowed narrow digits 9 71 0).Inv ∧ (windowed narrow digits 9 71 0).status.ev = true ∧
    (windowed narrow digits 9 71 0).engine.kind = .win ∧ (windowed narrow digits 9 71 0).dlen.toNat ≤ 4096 ∧
    (windowed narrow digits 9 71 0).SeedFits false ∧ 0 ≤ (windowed narrow digits 9 71 0).start.toInt ∧
    (windowed narrow digits 9 71 0).start.toInt < 8 * ((windowed narrow digits 9 71 0).dlen.toNat : Int) ∧
    (windowed narrow digits 9 71 0).length = 0#64 := by
  refine ⟨windowed_sound narrow_legal digits_wf 9 71 0, rfl, rfl, by decide, by simp [State.SeedFits], ?_, ?_, rfl⟩ <;> decide

theorem witness_DefaultLengthIsTheRemainder :
    (windowed ccitt digits 9 71 1).dlen.toNat ≤ 4096 ∧ 0 ≤ (windowed ccitt digits 9 71 1).start.toInt ∧
    (windowed ccitt digits 9 71 1).start.toInt < 8 * ((windowed ccitt digits 9 71 1).dlen.toNat : Int) ∧
    (windowed ccitt digits 9 71 1).length.toInt =
      8 * ((windowed ccitt digits 9 71 1).dlen.toNat : Int) - (windowed ccitt digits 9 71 1).start.toInt ∧
    ∃ t, exec (.calcWindow false true) (windowed ccitt digits 9 71 1) = .next t := by
  refine ⟨by decide, by decide, by decide, by decide, _, rfl⟩

/-- A command that answers an error, from a state with an engine built. -/
theorem witness_FailedCommandOnlyEntersItsError :
    ∃ t, exec (.rev 0) (ready .win ccitt digits 9) = .next t ∧ t.status.err = true := ⟨_, rfl, rfl⟩

theorem witness_ExactlyOneOfDoneAndErr :
    (given State.reset (.write .reg 2 0#64)).script = .write .reg 2 0#64 :: [] ∧ decode 0#64 ≠ .ok .srst ∧
    ∃ t, step (given State.reset (.write .reg 2 0#64)) = .next t := ⟨rfl, by decide, _, rfl⟩

/-- The disjuncts of the last clause: a result, and an error. -/
theorem witness_NoCommandReadsTheOutcomeOfAnEarlierOne :
    (∃ t, exec (.rev 8) State.reset = .next t) ∧
    ∃ t, exec .gentabM State.reset = .next t ∧ t.status.err = true := ⟨⟨_, rfl⟩, _, rfl, rfl⟩

theorem witness_StagedParametersDoNotReachTheEngine :
    ∃ t, exec (.calcBuffer false) (ready .gmsb ccitt digits 9) = .next t := ⟨_, rfl⟩

theorem witness_CalculationsLeaveTheRestAlone :
    (∃ t, exec (.calcBuffer false) (ready .gmsb ccitt digits 9) = .next t) ∧
    ∃ t, exec (.calcWindow false true) State.reset = .next t ∧ t.status.err = true := ⟨⟨_, rfl⟩, _, rfl, rfl⟩

/-- A byte listed at `DLEN`, one above the message, does not matter. -/
theorem witness_CalculationsReadOnlyTheirBytes :
    let s := ready .gmsb ccitt digits 9
    s.Inv ∧ (∀ a, a < s.dlen.toNat → ({ s with data := digits ++ [(9, 0xAA#8)], draws := s.draws } : State).dataByte a = s.dataByte a) ∧
    ∃ t, exec (.calcBuffer false) s = .next t :=
  ⟨ready_sound ccitt_legal rfl digits_wf 9, by decide +kernel, _, rfl⟩

/-- Two memories that differ only outside the byte of the window `(8, 8)`. -/
theorem witness_WindowReadsOnlyItsBytes :
    ∀ b : Nat, (8 : Int) / 8 ≤ b → (b : Int) ≤ (8 + 8 - 1) / 8 →
      (fun k => if k = 1 then 0x32#8 else 0#8) b = (fun k => if k = 1 then 0x32#8 else 0xFF#8) b := by
  intro b h1 h2
  have : b = 1 := by omega
  simp [this]

theorem witness_OnlyTheNamedCommandsWrite :
    (Instr.isBuild (.rev 8) = false ∧ Instr.isGentab (.rev 8) = false ∧ ∃ t, exec (.rev 8) State.reset = .next t) ∧
    (Instr.isBuild .gentabL = false ∧ ∃ t, exec .gentabL (staged crc32) = .next t) := ⟨⟨rfl, rfl, _, rfl⟩, rfl, _, rfl⟩

/-- A command that clears `EV`, one that sets it, and a step of each kind whose input is neither a reset nor an `SRST`. -/
theorem witness_EnginesAndTablesLastUntilTheNamedEvents :
    let g := given (built .tlsb crc32) (.write .reg 2 0x02#64)
    let b := given (staged ccitt) (.write .reg 2 0x14#64)
    (∃ t, exec .gentabM (built .tlsb crc32) = .next t ∧ (built .tlsb crc32).status.ev = true ∧ t.status.ev = false) ∧
    (∃ t, exec .buildWin (staged ccitt) = .next t ∧ (staged ccitt).status.ev = false ∧ t.status.ev = true) ∧
    (built .tlsb crc32).status.tv = true ∧
    ((∃ t, step g = .next t ∧ g.status.ev = true ∧ t.status.ev = false) ∧ g.script = [.write .reg 2 0x02#64] ∧
      decode 0x02#64 ≠ .ok .srst) ∧
    ((∃ t, step b = .next t ∧ b.status.ev = false ∧ t.status.ev = true) ∧ b.script = [.write .reg 2 0x14#64] ∧
      decode 0x14#64 ≠ .ok .srst) :=
  ⟨⟨_, rfl, rfl, rfl⟩, ⟨_, rfl, rfl, rfl⟩, rfl, ⟨⟨_, rfl, rfl, rfl⟩, rfl, by decide⟩, ⟨_, rfl, rfl, rfl⟩, rfl, by decide⟩

end Sys2Proof.Tests
end

section
/-! Proofs of the scope statements (00_scope.md R7, R10, R13): which steps complete, and where the model stops by name. -/

namespace Sys2Proof.Machine

/-! ### When a calculation's front-end checks pass, and when its engine has a meaning -/

/-- A seed override passes its check exactly when it fits the engine (R131). -/
theorem State.seedovrWide_eq_false {s : State} {so : Bool} : s.seedovrWide so = false ↔ s.SeedFits so := by
  simp only [State.seedovrWide, State.SeedFits, Bool.and_eq_false_imp, Bool.not_eq_false', fits_iff]

/-- The front-end checks of `CALC` in arithmetic words (R130). -/
theorem State.calcChecks_pass {s : State} {so : Bool} : firstFailing (s.calcChecks so) = none ↔
    s.status.ev = true ∧ (so = true → s.engine.kind.usesTable = false) ∧ s.dlen.toNat ≤ Config.bufsz ∧ s.SeedFits so := by
  simp [firstFailing_none, State.calcChecks, State.seedovrWide_eq_false]

/-- The front-end checks of `CALCW` in arithmetic words (R132). -/
theorem State.calcwChecks_pass {s : State} {so : Bool} : firstFailing (s.calcwChecks so) = none ↔
    s.status.ev = true ∧ s.engine.kind = .win ∧ s.dlen.toNat ≤ Config.bufsz ∧ s.SeedFits so := by
  simp [firstFailing_none, State.calcwChecks, State.seedovrWide_eq_false]

/-- The engines that no rule gives a meaning to, kind by kind (R10, R144; log 8). -/
theorem Engine.shiftsNegative_iff {e : Engine} : e.shiftsNegative = true ↔
    e.kind = .tmsb ∧ e.width.toNat < 8 ∨
      (e.kind = .gmsb ∨ e.kind = .win) ∧ e.width.toNat + e.lshift.toNat < 8 := by
  unfold Engine.shiftsNegative Engine.workWidth
  cases e.kind <;> simp

/-- The working register of a well-built engine takes a whole byte: `LSHIFT` fills it up to 8 bits (R151, R152). -/
theorem Engine.WellBuilt.eight_le_workWidth {e : Engine} (h : e.WellBuilt) : 8 ≤ e.workWidth := by
  rw [Engine.workWidth, h.lshift_eq, lshiftOf]
  split <;> omega

/-- No rule shifts a register of a well-built engine by a negative count (R122, R152). -/
theorem Engine.WellBuilt.shiftsNegative_eq_false {e : Engine} (h : e.WellBuilt) : e.shiftsNegative = false := by
  rw [Bool.eq_false_iff, ne_eq, Engine.shiftsNegative_iff]
  rintro (⟨hk, hw⟩ | ⟨-, hw⟩)
  · exact absurd (h.tmsb_conv hk).2 (by omega)
  · exact absurd h.eight_le_workWidth (by rw [Engine.workWidth]; omega)

/-! ### Which commands and steps complete -/

/-- A checked command completes when it does after its checks: a failing check is an error entry, a next state (R190). -/
theorem guarded_completes {checks : List (Bool × Err)} {s : State} {go : State → Out}
    (h : firstFailing checks = none → ∃ t, go s = .next t) : ∃ t, s.guarded checks go = .next t := by
  cases hc : firstFailing checks with
  | none => exact guarded_pass s go hc ▸ h hc
  | some e => exact ⟨_, guarded_fail s go hc⟩

/-- A calculation on an engine with a meaning completes, with its result or its error. -/
theorem calculate_completes {s : State} (h : s.engine.shiftsNegative = false) (r : Except Err Nat) :
    ∃ t, s.calculate r = .next t := ⟨s.finishWith r, by simp [State.calculate, h]⟩

/-- A calculation on any other engine stops by name (log 8). -/
theorem calculate_fault {s : State} (h : s.engine.shiftsNegative = true) (r : Except Err Nat) :
    s.calculate r = .fault .negativeShift := by simp [State.calculate, h]

/-- `CALC` past its checks is the calculation on the built engine (R130). -/
theorem exec_calcBuffer_pass {s : State} {so : Bool} (h : firstFailing (s.calcChecks so) = none) :
    exec (.calcBuffer so) s = s.calculate (s.runEngine (s.seed0 so)) := by
  rw [exec, execCalc, guarded_pass s _ h]

/-- `CALCW` past its checks is the calculation on the window (R132). -/
theorem exec_calcWindow_pass {s : State} {so : Bool} (dl : Bool) (h : firstFailing (s.calcwChecks so) = none) :
    exec (.calcWindow so dl) s =
      s.calculate (calcWin s.engine s.dataByte s.dlen.toNat s.windowStart (s.windowLength dl) (s.seed0 so)) := by
  rw [exec, execCalcw, guarded_pass s _ h]

theorem gentab_completes (c : Conv) (s : State) : ∃ t, s.gentab c = .next t := by
  unfold State.gentab
  exact guarded_completes fun _ => ⟨_, rfl⟩

theorem build_completes (k : Kind) (s : State) : ∃ t, s.build k = .next t := by
  unfold State.build
  exact guarded_completes fun _ => ⟨_, rfl⟩

/-- Every command completes in a state whose built engine, if there is one, has a meaning. -/
theorem exec_completes {s : State} (h : s.status.ev = true → s.engine.shiftsNegative = false) (i : Instr) :
    ∃ t, exec i s = .next t := by
  cases i with
  | gentabM => exact gentab_completes .msb s
  | gentabL => exact gentab_completes .lsb s
  | buildTlsb => exact build_completes .tlsb s
  | buildTmsb => exact build_completes .tmsb s
  | buildGmsb => exact build_completes .gmsb s
  | buildGlsb => exact build_completes .glsb s
  | buildWin => exact build_completes .win s
  | rev n =>
    rw [exec, execRev]
    exact guarded_completes fun _ => ⟨_, rfl⟩
  | buildAuto =>
    rw [exec, execBuildAuto]
    exact guarded_completes fun _ => ⟨_, rfl⟩
  | calcBuffer so =>
    rw [exec, execCalc]
    exact guarded_completes fun hc => calculate_completes (h (State.calcChecks_pass.mp hc).1) _
  | calcWindow so dl =>
    rw [exec, execCalcw]
    exact guarded_completes fun hc => calculate_completes (h (State.calcwChecks_pass.mp hc).1) _
  | clrerr => exact ⟨_, rfl⟩
  | srst => exact ⟨_, rfl⟩

/-- A value written to `CMD` completes under the same condition: one that is no command is an error entry (R86). -/
theorem runCommand_completes {s : State} (h : s.status.ev = true → s.engine.shiftsNegative = false) (c : Word) :
    ∃ t, runCommand c s = .next t := by
  unfold runCommand
  cases decode c with
  | ok i => exact exec_completes h i
  | error e => exact ⟨_, rfl⟩

/-- With no input left a step answers the same state (log 2). -/
theorem step_idle {s : State} (h : s.script = []) : step s = .next s := by simp [step, h]

/-- A step whose next input issues no command is that host operation (R13). -/
theorem step_hostOperation {s : State} {i : Input} {rest : List Input} (h : s.script = i :: rest)
    (hi : i.commandValue = none) : step s = .next ((s.advance rest).hostOperation i) := by
  simp [step, h, hi]

/-- Every step completes in a state whose built engine, if there is one, has a meaning. -/
theorem step_completes {s : State} (h : s.status.ev = true → s.engine.shiftsNegative = false) :
    ∃ t, step s = .next t := by
  cases hs : s.script with
  | nil => exact ⟨s, step_idle hs⟩
  | cons i rest =>
    cases hi : i.commandValue with
    | none => exact ⟨_, step_hostOperation hs hi⟩
    | some c =>
      rw [commandValue_some hi] at hs
      rw [step_command hs]
      exact runCommand_completes (s := s.advance rest) h c

/-! ### The statements -/

/-- Settles O16: the engine of a sound state is well built, and then no shift count is negative. -/
theorem soundBlockIsNeverStuck : Obligations.SoundBlockIsNeverStuck :=
  fun _ h => step_completes fun hev => (h.engine_ok hev).shiftsNegative_eq_false

/-- Settles O4: the write of `CMD` runs `runCommand`, whose decoder answers `i`; a read of `CMD` is constant. -/
theorem stepRunsTheDecodedCommand : Obligations.StepRunsTheDecodedCommand := by
  intro s c i rest
  refine ⟨fun hs hd => ?_, rfl⟩
  rw [step_command hs, runCommand, hd]
  rfl

/-- Settles O11, the model's choice of log 2. -/
theorem idleBlockKeepsItsState : Obligations.IdleBlockKeepsItsState := fun _ => step_idle

/-- Settles O39, the model's choice of log 8: the front-end checks pass, the calculation stops, and no well-built engine is of this shape. -/
theorem negativeShiftStops : Obligations.NegativeShiftStops := by
  intro s so hev hlen hseed hshape
  have hneg : s.engine.shiftsNegative = true := Engine.shiftsNegative_iff.mpr hshape
  refine ⟨fun htab => ?_, fun hwin dl => ?_, fun hinv => ?_⟩
  · rw [exec_calcBuffer_pass (State.calcChecks_pass.mpr ⟨hev, htab, hlen, hseed⟩), calculate_fault hneg]
  · rw [exec_calcWindow_pass dl (State.calcwChecks_pass.mpr ⟨hev, hwin, hlen, hseed⟩), calculate_fault hneg]
  · simp [(hinv.engine_ok hev).shiftsNegative_eq_false] at hneg

end Sys2Proof.Machine
end

section
/-! Proofs of the statements about the registers and the state (10_state.md): the effects a command can have, what each leaves alone, and that every step keeps a state sound. -/

namespace Sys2Proof.Machine

/-! ### What a construction and a host write leave alone -/

@[simp] theorem State.construct_params (k : Kind) (s : State) : (s.construct k).params = s.params := by cases k <;> rfl
@[simp] theorem State.construct_opa (k : Kind) (s : State) : (s.construct k).opa = s.opa := by cases k <;> rfl
@[simp] theorem State.construct_seedovr (k : Kind) (s : State) : (s.construct k).seedovr = s.seedovr := by cases k <;> rfl
@[simp] theorem State.construct_dlen (k : Kind) (s : State) : (s.construct k).dlen = s.dlen := by cases k <;> rfl
@[simp] theorem State.construct_start (k : Kind) (s : State) : (s.construct k).start = s.start := by cases k <;> rfl
@[simp] theorem State.construct_length (k : Kind) (s : State) : (s.construct k).length = s.length := by cases k <;> rfl
@[simp] theorem State.construct_data (k : Kind) (s : State) : (s.construct k).data = s.data := by cases k <;> rfl
@[simp] theorem State.construct_draws (k : Kind) (s : State) : (s.construct k).draws = s.draws := by cases k <;> rfl
@[simp] theorem State.construct_script (k : Kind) (s : State) : (s.construct k).script = s.script := by cases k <;> rfl
@[simp] theorem State.construct_reads (k : Kind) (s : State) : (s.construct k).reads = s.reads := by cases k <;> rfl

/-- A table kind makes the table valid, and no kind takes a valid table away (R123). -/
@[simp] theorem State.construct_status (k : Kind) (s : State) : (s.construct k).status =
    { s.status with ev := true, tv := s.status.tv || k.usesTable, done := true, err := false } := by
  cases k <;> simp [State.construct, State.buildTable, State.generate, Kind.usesTable]

@[simp] theorem State.writeReg_status (s : State) (v : Word) (r : Reg) : (s.writeReg v r).status = s.status := by cases r <;> rfl
@[simp] theorem State.writeReg_errcode (s : State) (v : Word) (r : Reg) : (s.writeReg v r).errcode = s.errcode := by cases r <;> rfl
@[simp] theorem State.writeReg_result (s : State) (v : Word) (r : Reg) : (s.writeReg v r).result = s.result := by cases r <;> rfl
@[simp] theorem State.writeReg_engine (s : State) (v : Word) (r : Reg) : (s.writeReg v r).engine = s.engine := by cases r <;> rfl
@[simp] theorem State.writeReg_tableInfo (s : State) (v : Word) (r : Reg) : (s.writeReg v r).tableInfo = s.tableInfo := by cases r <;> rfl
@[simp] theorem State.writeReg_table (s : State) (v : Word) (r : Reg) : (s.writeReg v r).table = s.table := by cases r <;> rfl
@[simp] theorem State.writeReg_data (s : State) (v : Word) (r : Reg) : (s.writeReg v r).data = s.data := by cases r <;> rfl
@[simp] theorem State.writeReg_draws (s : State) (v : Word) (r : Reg) : (s.writeReg v r).draws = s.draws := by cases r <;> rfl
@[simp] theorem State.writeReg_script (s : State) (v : Word) (r : Reg) : (s.writeReg v r).script = s.script := by cases r <;> rfl
@[simp] theorem State.writeReg_reads (s : State) (v : Word) (r : Reg) : (s.writeReg v r).reads = s.reads := by cases r <;> rfl

/-- Everything a host write that is no command can do: nothing, a register write, or a byte stored inside `DATA` (R63, R65). -/
theorem State.portWrite_cases (s : State) (space : Space) (a : Nat) (v : Word) :
    s.portWrite space a v = s ∨ (∃ r, s.portWrite space a v = s.writeReg v r) ∨
      (a < Config.bufsz ∧ s.portWrite space a v = s.writeData a (v.setWidth 8)) := by
  unfold State.portWrite
  cases space with
  | reg =>
    cases Reg.ofNumber a with
    | none => exact .inl rfl
    | some r => exact .inr (.inl ⟨r, rfl⟩)
  | data =>
    by_cases ha : a < Config.bufsz
    · exact .inr (.inr ⟨ha, if_pos ha⟩)
    · exact .inl (if_neg ha)
  | tab => exact .inl rfl

@[simp] theorem State.portWrite_status (s : State) (space : Space) (a : Nat) (v : Word) :
    (s.portWrite space a v).status = s.status := by
  rcases s.portWrite_cases space a v with h | ⟨r, h⟩ | ⟨-, h⟩ <;> simp [h]

/-! ### The six effects a command can have -/

/-- The effects of the thirteen commands, command by command in `CommandSucceeds`, by shape: error entry, a result, a generated table, a construction, `CLRERR` and `SRST`. -/
inductive CommandEffect (i : Instr) (s : State) : State → Prop where
  | failed (e : Err) : CommandEffect i s (s.raiseError e)
  | produced (v : Nat) : CommandEffect i s (s.setResult v).complete
  | generated (c : Conv) : i.isGentab = true → firstFailing (widthPolyChecks s.params) = none →
      CommandEffect i s (s.generate c).invalidateEngine.complete
  | constructed (k : Kind) : i.isBuild = true → s.params.Legal → firstFailing (kindChecks k s.params) = none →
      CommandEffect i s (s.construct k)
  | acknowledged : CommandEffect i s s.clearSticky.complete
  | reset : i = .srst → CommandEffect i s s.toReset

/-- A `BUILD` of a kind whose checks pass constructs it from a legal Parameter Set (R121, R122). -/
theorem CommandEffect.of_build {i : Instr} {s : State} (k : Kind) (hi : i.isBuild = true)
    (hc : firstFailing (commonChecks s.params ++ kindChecks k s.params) = none) : CommandEffect i s (s.construct k) := by
  rw [firstFailing_none, List.forall_mem_append, ← firstFailing_none, ← firstFailing_none] at hc
  exact .constructed k hi (commonChecks_pass.mp hc.1) hc.2

/-- Every command that goes on has one of the six effects. -/
theorem exec_effect {i : Instr} {s t : State} (h : exec i s = .next t) : CommandEffect i s t := by
  rcases exec_cases h with ⟨e, rfl⟩ | hs
  · exact .failed e
  cases i with
  | rev n => obtain ⟨-, -, rfl⟩ := hs; exact .produced _
  | gentabM => obtain ⟨hc, rfl⟩ := hs; exact .generated .msb rfl hc
  | gentabL => obtain ⟨hc, rfl⟩ := hs; exact .generated .lsb rfl hc
  | buildTlsb => obtain ⟨hc, rfl⟩ := hs; exact .of_build .tlsb rfl hc
  | buildTmsb => obtain ⟨hc, rfl⟩ := hs; exact .of_build .tmsb rfl hc
  | buildGmsb => obtain ⟨hc, rfl⟩ := hs; exact .of_build .gmsb rfl hc
  | buildGlsb => obtain ⟨hc, rfl⟩ := hs; exact .of_build .glsb rfl hc
  | buildWin => obtain ⟨hc, rfl⟩ := hs; exact .of_build .win rfl hc
  | buildAuto =>
    obtain ⟨hc, rfl⟩ := hs
    exact .constructed _ rfl (commonChecks_pass.mp hc) (kindChecks_autoKind s.params)
  | calcBuffer so => obtain ⟨-, -, v, -, rfl⟩ := hs; exact .produced v
  | calcWindow so dl => obtain ⟨-, -, v, -, rfl⟩ := hs; exact .produced v
  | clrerr => cases hs; exact .acknowledged
  | srst => cases hs; exact .reset rfl

/-- A command but `SRST` ends in error entry or in completion (R189, R190). -/
theorem CommandEffect.ends {i : Instr} {s t : State} (h : CommandEffect i s t) (hi : i ≠ .srst) :
    (∃ e, t = s.raiseError e) ∨ ∃ x : State, t = x.complete := by
  cases h with
  | failed e => exact .inl ⟨e, rfl⟩
  | reset h => exact absurd h hi
  | produced | generated | constructed | acknowledged => exact .inr ⟨_, rfl⟩

/-! ### Sound states -/

/-- Soundness is about `STATUS`, `ERRCODE`, `RESULT`, the engine, the table and `DATA`; the rest of the state is free. -/
theorem State.Inv.of_same {s t : State} (h : s.Inv) (hstatus : t.status = s.status) (herrcode : t.errcode = s.errcode)
    (hresult : t.result = s.result) (hengine : t.engine = s.engine) (hinfo : t.tableInfo = s.tableInfo)
    (htable : t.table = s.table) (hdata : Memory.wf t.data) : t.Inv := by
  constructor
  · exact hdata
  all_goals simp only [hstatus, herrcode, hresult, hengine, hinfo, htable]
  exacts [h.engine_ok, h.engine_table, h.table_ok, h.table_none, h.result_zero, h.done_err, h.err_sticky,
    h.errcode_err, h.errcode_ok]

theorem State.Inv.raiseError {s : State} (h : s.Inv) (e : Err) : (s.raiseError e).Inv :=
  ⟨h.data_wf, h.engine_ok, h.engine_table, h.table_ok, h.table_none, by simp, by simp, by simp,
    fun _ => ⟨e, rfl⟩, by simp⟩

/-- Completion makes the three outcome fields agree, whatever they were (R189). -/
theorem State.Inv.complete {s : State} (h : s.Inv) : s.complete.Inv :=
  ⟨h.data_wf, h.engine_ok, h.engine_table, h.table_ok, h.table_none, h.result_zero, by simp, by simp, by simp, by simp⟩

theorem State.Inv.setResult {s : State} (h : s.Inv) (v : Nat) : (s.setResult v).Inv :=
  ⟨h.data_wf, h.engine_ok, h.engine_table, h.table_ok, h.table_none, by simp, h.done_err, h.err_sticky,
    h.errcode_err, h.errcode_ok⟩

/-- `CLRERR` clears `ESTK` only together with `ERR` (R180). -/
theorem State.Inv.clearSticky_complete {s : State} (h : s.Inv) : s.clearSticky.complete.Inv :=
  ⟨h.data_wf, h.engine_ok, h.engine_table, h.table_ok, h.table_none, h.result_zero, by simp, by simp, by simp, by simp⟩

/-- The engine that survives a `GENTAB` uses no table, so the new table is no matter to it (R116). -/
theorem State.Inv.generate_invalidateEngine {s : State} (h : s.Inv) (c : Conv)
    (hc : firstFailing (widthPolyChecks s.params) = none) : (s.generate c).invalidateEngine.Inv where
  data_wf := h.data_wf
  engine_ok hev := h.engine_ok (by simpa [State.generate] using (Bool.and_eq_true_iff.mp hev).1)
  engine_table hev htab := by
    have hnot : s.engine.kind.usesTable = false := by
      simpa [State.generate] using (Bool.and_eq_true_iff.mp hev).2
    exact absurd htab (by simp [State.generate, hnot])
  table_ok _ := State.generate_table hc
  table_none := by simp [State.generate]
  result_zero := h.result_zero
  done_err := h.done_err
  err_sticky := h.err_sticky
  errcode_err := h.errcode_err
  errcode_ok := h.errcode_ok

/-- The reset state has no engine, table, result or error to speak of. -/
theorem State.reset_inv : State.reset.Inv := by constructor <;> simp [State.reset, Memory.wf]

theorem State.toReset_inv (s : State) : s.toReset.Inv := State.reset_inv.of_same rfl rfl rfl rfl rfl rfl State.reset_inv.data_wf

theorem State.Inv.advance {s : State} (h : s.Inv) (rest : List Input) : (s.advance rest).Inv :=
  h.of_same rfl rfl rfl rfl rfl rfl h.data_wf

theorem State.Inv.portWrite {s : State} (h : s.Inv) (space : Space) (a : Nat) (v : Word) :
    (s.portWrite space a v).Inv := by
  rcases s.portWrite_cases space a v with he | ⟨r, he⟩ | ⟨ha, he⟩ <;> rw [he]
  · exact h
  · exact h.of_same (by simp) (by simp) (by simp) (by simp) (by simp) (by simp) (by simpa using h.data_wf)
  · exact h.of_same rfl rfl rfl rfl rfl rfl (Memory.write_wf h.data_wf ha _)

theorem State.Inv.hostOperation {s : State} (h : s.Inv) (i : Input) : (s.hostOperation i).Inv := by
  cases i with
  | write space a v => exact h.portWrite space a v
  | read space a => exact h.of_same rfl rfl rfl rfl rfl rfl h.data_wf
  | reset => exact s.toReset_inv

/-- Each of the six effects leads from a sound state to a sound state. -/
theorem CommandEffect.inv {i : Instr} {s t : State} (he : CommandEffect i s t) (h : s.Inv) : t.Inv := by
  cases he with
  | failed e => exact h.raiseError e
  | produced v => exact (h.setResult v).complete
  | generated c _ hc => exact (h.generate_invalidateEngine c hc).complete
  | constructed k _ hp hk => exact State.construct_inv h hp hk
  | acknowledged => exact h.clearSticky_complete
  | reset _ => exact s.toReset_inv

/-- Settles O15: a step is idle, one of the command effects, a decode error's entry or a host operation, and each keeps the invariant. -/
theorem everyStepKeepsTheStateSound : Obligations.EveryStepKeepsTheStateSound := by
  intro s t h hstep
  rcases step_cases hstep with ⟨-, rfl⟩ | ⟨i, rest, -, ⟨c, j, -, -, hexec⟩ | ⟨c, e, -, -, rfl⟩ | ⟨-, rfl⟩⟩
  · exact h
  · exact (exec_effect hexec).inv (h.advance rest)
  · exact (h.advance rest).raiseError _
  · exact (h.advance rest).hostOperation i

/-- Settles O14. -/
theorem resetStateIsSound : Obligations.ResetStateIsSound := State.reset_inv

end Sys2Proof.Machine
end

section
/-! Proofs of the statements about the host's view of the registers (10_state.md R21, R31, R38 to R46, R62): which state each register number reads and writes, and where the fields of a register stand. -/

namespace Sys2Proof.Machine

/-! ### Register numbers -/

/-- The number of a register in R46's map. -/
def Reg.number : Reg → Nat
  | .id => 0x00
  | .cap => 0x01
  | .cmd => 0x02
  | .status => 0x03
  | .errcode => 0x04
  | .poly => 0x08
  | .width => 0x09
  | .seed => 0x0A
  | .xorout => 0x0B
  | .flags => 0x0C
  | .opa => 0x0D
  | .seedovr => 0x0E
  | .dlen => 0x10
  | .start => 0x11
  | .length => 0x12
  | .result => 0x18
  | .epoly => 0x20
  | .eseed => 0x21
  | .exorout => 0x22
  | .emask => 0x23
  | .ecfg => 0x24
  | .tcfg => 0x28
  | .tpoly => 0x29

@[simp] theorem Reg.ofNumber_number (r : Reg) : Reg.ofNumber r.number = some r := by cases r <;> rfl

/-- A register has one number only (R46). -/
theorem Reg.eq_number_of_ofNumber {n : Nat} {r : Reg} (h : Reg.ofNumber n = some r) : n = r.number := by
  unfold Reg.ofNumber at h
  split at h <;> cases h <;> rfl

/-- The registers that the host may write, `CMD` apart (R21, R46). -/
def Reg.isRw (r : Reg) : Bool :=
  r ∈ [Reg.poly, .width, .seed, .xorout, .flags, .opa, .seedovr, .dlen, .start, .length]

/-- The two bits of `FLAGS` at their places, nothing above them (R31). -/
theorem flagsWord_fields (a b : Bool) :
    (flagsWord a b).getLsbD 0 = a ∧ (flagsWord a b).getLsbD 1 = b ∧ (flagsWord a b).toNat < 2 ^ 2 := by
  cases a <;> cases b <;> decide

theorem getLsbD_flagsWord (a b : Bool) (i : Nat) :
    (flagsWord a b).getLsbD i = (decide (i = 0) && a || decide (i = 1) && b) := by
  obtain ⟨h0, h1, hlt⟩ := flagsWord_fields a b
  match i with
  | 0 => simpa using h0
  | 1 => simpa using h1
  | i + 2 => simp [BitVec.getLsbD, testBit_of_lt hlt]

/-- Of a value written, `FLAGS` keeps the low two bits (R31). -/
theorem flagsWord_low_bits (v : Word) : flagsWord (v.getLsbD 0) (v.getLsbD 1) = v &&& 3#64 := by
  apply BitVec.eq_of_getLsbD_eq
  intro i _
  rw [BitVec.getLsbD_and, show 3#64 = flagsWord true true from rfl, getLsbD_flagsWord, getLsbD_flagsWord]
  match i with
  | 0 => simp
  | 1 => simp
  | i + 2 => simp

/-- An `RW` register reads the value last written, less its reserved bits (R21, R62). -/
theorem State.readReg_writeReg_same (s : State) (v : Word) {r : Reg} (h : r.isRw = true) :
    (s.writeReg v r).readReg r = if r = .flags then v &&& 3#64 else v := by
  cases r
  case flags => exact flagsWord_low_bits v
  case poly | width | seed | xorout | opa | seedovr | dlen | start | length => rfl
  all_goals exact absurd h (by decide)

/-- No other register reads differently after the write: what it reads is not the field written (R62). -/
theorem State.readReg_writeReg_other (s : State) (v : Word) {r q : Reg} (h : q ≠ r) :
    (s.writeReg v r).readReg q = s.readReg q := by
  cases r
  case poly | width | seed | xorout | flags | opa | seedovr | dlen | start | length => cases q <;> trivial
  all_goals rfl

/-- Reading a register by its number. -/
@[simp] theorem State.portRead_number (s : State) (r : Reg) : s.portRead .reg r.number = s.readReg r := by
  simp [State.portRead]

/-- A host write to a register that is not `CMD` is that register's write, once the script has gone on (R61, R62). -/
theorem step_writeReg {s : State} {r : Reg} {v : Word} {rest : List Input} (hr : r ≠ .cmd)
    (h : s.script = .write .reg r.number v :: rest) : step s = .next ((s.advance rest).writeReg v r) := by
  have hcmd : (Input.write .reg r.number v).commandValue = none := if_neg fun h2 => hr (by
    have := Reg.ofNumber_number r
    rw [h2] at this
    exact (Option.some.inj this).symm)
  rw [step_hostOperation h hcmd, State.hostOperation, State.portWrite, Reg.ofNumber_number]

/-- The numbers that R46 marks `RW`. -/
theorem Reg.exists_isRw {n : Nat} (h : n ∈ [0x08, 0x09, 0x0A, 0x0B, 0x0C, 0x0D, 0x0E, 0x10, 0x11, 0x12]) :
    ∃ r : Reg, r.isRw = true ∧ n = r.number := by
  have hmap : [0x08, 0x09, 0x0A, 0x0B, 0x0C, 0x0D, 0x0E, 0x10, 0x11, 0x12] =
    [Reg.poly, .width, .seed, .xorout, .flags, .opa, .seedovr, .dlen, .start, .length].map Reg.number := rfl
  obtain ⟨r, hr, rfl⟩ := List.mem_map.mp (hmap ▸ h)
  exact ⟨r, decide_eq_true hr, rfl⟩

/-- The only register with the number of `FLAGS`. -/
theorem Reg.number_eq_flags {r : Reg} : r.number = 0x0C ↔ r = .flags := by cases r <;> decide

/-- Settles O8: the written register reads its value back, each other number selects another register or none, and a register write touches neither memory. -/
theorem rwRegisterReadsBackTheLastWrite : Obligations.RwRegisterReadsBackTheLastWrite := by
  intro s v n rest hn hs
  obtain ⟨r, hrw, rfl⟩ := Reg.exists_isRw hn
  have hcmd : r ≠ .cmd := by rintro rfl; cases hrw
  refine ⟨_, step_writeReg hcmd hs, ?_, fun m hm => ?_, fun a => ?_, fun i => ?_, by simp, by simp, by simp, by simp⟩
  · simp only [State.portRead_number, State.readReg_writeReg_same _ v hrw, Reg.number_eq_flags]
  · unfold State.portRead
    cases hq : Reg.ofNumber m with
    | none => rfl
    | some q =>
      have hne : q ≠ r := fun h => hm (h ▸ Reg.eq_number_of_ofNumber hq)
      exact State.readReg_writeReg_other (s.advance rest) v hne
  · simp [State.portRead, State.dataByte]
  · simp [State.portRead, State.tableEntry]

/-- Settles O60: each number selects its register, whose reads and writes name the field. -/
theorem registerNumbersSelectTheNamedState : Obligations.RegisterNumbersSelectTheNamedState := by
  intro s
  refine ⟨⟨rfl, rfl, rfl, rfl, rfl, rfl, rfl, rfl, rfl, rfl, rfl, rfl, rfl, rfl, rfl, rfl, rfl, rfl⟩, fun v rest => ?_⟩
  exact ⟨step_writeReg (r := .poly) nofun rfl, step_writeReg (r := .width) nofun rfl,
    step_writeReg (r := .seed) nofun rfl, step_writeReg (r := .xorout) nofun rfl,
    step_writeReg (r := .flags) nofun rfl, step_writeReg (r := .opa) nofun rfl,
    step_writeReg (r := .seedovr) nofun rfl, step_writeReg (r := .dlen) nofun rfl,
    step_writeReg (r := .start) nofun rfl, step_writeReg (r := .length) nofun rfl⟩

/-! ### The fields of a register -/

/-- A one-bit field, read off the value of its word. -/
theorem getLsbD_eq_of_bit {x : Word} {i : Nat} {b : Bool} (h : x.toNat / 2 ^ i % 2 = b.toNat) : x.getLsbD i = b := by
  rw [BitVec.getLsbD, Nat.testBit_eq_decide_div_mod_eq, h]
  cases b <;> rfl

theorem Kind.code_lt (k : Kind) : k.code < 5 := by cases k <;> decide

theorem Conv.code_eq (c : Conv) : c.code = (decide (c = .lsb)).toNat := by cases c <;> rfl

/-- The six stored bits of `STATUS` at their places, nothing above them (R38). -/
theorem Status.toWord_fields (f : Status) :
    f.toWord.getLsbD 0 = f.done ∧ f.toWord.getLsbD 1 = f.err ∧ f.toWord.getLsbD 2 = f.rv ∧
      f.toWord.getLsbD 3 = f.ev ∧ f.toWord.getLsbD 4 = f.tv ∧ f.toWord.getLsbD 5 = f.estk ∧ f.toWord.toNat < 2 ^ 6 := by
  have h0 := f.done.toNat_lt
  have h1 := f.err.toNat_lt
  have h2 := f.rv.toNat_lt
  have h3 := f.ev.toNat_lt
  have h4 := f.tv.toNat_lt
  have h5 := f.estk.toNat_lt
  have hw : f.toWord.toNat = f.done.toNat + f.err.toNat * 2 ^ 1 + f.rv.toNat * 2 ^ 2 + f.ev.toNat * 2 ^ 3
      + f.tv.toNat * 2 ^ 4 + f.estk.toNat * 2 ^ 5 := Nat.mod_eq_of_lt (by omega)
  refine ⟨?_, ?_, ?_, ?_, ?_, ?_, by omega⟩ <;> apply getLsbD_eq_of_bit <;> omega

/-- The fields of `ECFG` at their places, bits 14 and 15 and all above `LSHIFT` zero (R41). -/
theorem Engine.ecfg_fields (e : Engine) :
    e.ecfg.toNat % 2 ^ 8 = e.width.toNat ∧ e.ecfg.getLsbD 8 = e.refin ∧ e.ecfg.getLsbD 9 = e.refout ∧
      e.ecfg.getLsbD 10 = e.rr ∧ e.ecfg.toNat / 2 ^ 11 % 2 ^ 3 = e.kind.code ∧
      e.ecfg.toNat / 2 ^ 14 % 2 ^ 2 = 0 ∧ e.ecfg.toNat / 2 ^ 16 = e.lshift.toNat := by
  have hwidth := e.width.isLt
  have hrefin := e.refin.toNat_lt
  have hrefout := e.refout.toNat_lt
  have hrr := e.rr.toNat_lt
  have hkind := e.kind.code_lt
  have hlshift := e.lshift.isLt
  have hw : e.ecfg.toNat = e.width.toNat + e.refin.toNat * 2 ^ 8 + e.refout.toNat * 2 ^ 9 + e.rr.toNat * 2 ^ 10
      + e.kind.code * 2 ^ 11 + e.lshift.toNat * 2 ^ 16 := Nat.mod_eq_of_lt (by omega)
  refine ⟨by omega, getLsbD_eq_of_bit ?_, getLsbD_eq_of_bit ?_, getLsbD_eq_of_bit ?_, by omega, by omega, by omega⟩ <;>
    omega

/-- The fields of `TCFG` at their places, nothing above `VALID` (R43). -/
theorem tcfgWord_fields (t : TableInfo) (tv : Bool) :
    (tcfgWord t tv).toNat % 2 ^ 8 = t.width.toNat ∧ (tcfgWord t tv).getLsbD 8 = decide (t.conv = .lsb) ∧
      (tcfgWord t tv).getLsbD 9 = tv ∧ (tcfgWord t tv).toNat < 2 ^ 10 := by
  have hwidth := t.width.isLt
  have hconv := (decide (t.conv = .lsb)).toNat_lt
  have htv := tv.toNat_lt
  have hw : (tcfgWord t tv).toNat = t.width.toNat + (decide (t.conv = .lsb)).toNat * 2 ^ 8 + tv.toNat * 2 ^ 9 := by
    rw [tcfgWord, Conv.code_eq]
    exact Nat.mod_eq_of_lt (by omega)
  refine ⟨by omega, getLsbD_eq_of_bit ?_, getLsbD_eq_of_bit ?_, by omega⟩ <;> omega

/-- Settles O9, register by register. -/
theorem fieldRegistersReadAsLaidOut : Obligations.FieldRegistersReadAsLaidOut := by
  intro s
  have herrcode := s.errcode.isLt
  obtain ⟨hwidth, hrefin, hrefout, hrr, hkind, hzero, hlshift⟩ := s.engine.ecfg_fields
  refine ⟨s.status.toWord_fields, ?_, flagsWord_fields s.params.refin s.params.refout,
    ⟨hwidth, hrefin, hrefout, hrr, ?_, hzero, hlshift⟩, tcfgWord_fields s.tableInfo s.status.tv⟩
  · exact (BitVec.toNat_setWidth ..).trans (Nat.mod_eq_of_lt (by omega))
  · exact hkind.trans (by cases s.engine.kind <;> rfl)

end Sys2Proof.Machine
end

section
/-! Proofs of the statements about who writes and who reads the state (10_state.md R38 to R43, R48): the outcome fields, the life of engines and tables, and what a command's outcome does not depend on. -/

namespace Sys2Proof.Machine

/-! ### The placed command word -/

theorem decodeTableWord_eq_some {nbits w : Nat} {i : Instr} :
    decodeTableWord nbits w = some i ↔ decode (BitVec.ofNat 64 (w % 2 ^ nbits)) = .ok i := by
  unfold decodeTableWord
  cases decode (BitVec.ofNat 64 (w % 2 ^ nbits)) <;> simp

/-- Settles O5: the placed input is the next one, and consuming it gives the state back. -/
theorem placedCommandWordRunsNext : Obligations.PlacedCommandWordRunsNext := by
  intro s nbits w i hi
  rw [step_command (s := s.withFetchWord nbits w) rfl, runCommand, decodeTableWord_eq_some.mp hi]
  rfl

/-! ### The outcome fields -/

/-- No error has the code 0 that stands for none (R39, R186). -/
theorem Err.code_ne_zero (e : Err) : e.code ≠ 0#8 := by cases e <;> decide

/-- `ERR` is the negation of `DONE`, and `ERRCODE` is 0 exactly with `DONE` (R38, R39). -/
def State.OutcomeAgrees (t : State) : Prop := t.status.done = !t.status.err ∧ (t.errcode = 0#8 ↔ t.status.done = true)

theorem State.raiseError_outcomeAgrees (e : Err) (s : State) : (s.raiseError e).OutcomeAgrees :=
  ⟨rfl, by simp [e.code_ne_zero]⟩

theorem State.complete_outcomeAgrees (s : State) : s.complete.OutcomeAgrees := ⟨rfl, by simp⟩

/-- Settles O48: a command but `SRST` ends in error entry or completion, and a word that is no command in error entry. -/
theorem exactlyOneOfDoneAndErr : Obligations.ExactlyOneOfDoneAndErr := by
  intro s t c rest hs hsrst hstep
  rw [step_command hs, runCommand] at hstep
  cases hd : decode c with
  | error e =>
    rw [hd] at hstep
    cases hstep
    exact State.raiseError_outcomeAgrees _ _
  | ok i =>
    rw [hd] at hstep
    rcases (exec_effect hstep).ends (fun hi => hsrst (hi ▸ hd)) with ⟨e, rfl⟩ | ⟨x, rfl⟩
    · exact State.raiseError_outcomeAgrees e _
    · exact x.complete_outcomeAgrees

/-! ### Who writes what -/

/-- Settles O54, effect by effect. -/
theorem onlyTheNamedCommandsWrite : Obligations.OnlyTheNamedCommandsWrite := by
  intro i s t hi h
  cases exec_effect h with
  | failed e => simp
  | produced v => simp
  | generated c hgen _ => simp [State.generate, hgen]
  | constructed k hbuild _ _ => simp [hbuild]
  | acknowledged => simp
  | reset hsrst => exact absurd hsrst hi

/-- An engine goes only by a completed `GENTAB` under a table kind and comes only by a completed `BUILD`; no table goes (R48, R116, R213). -/
theorem CommandEffect.engine_table_life {i : Instr} {s t : State} (h : CommandEffect i s t) (hi : i ≠ .srst) :
    (s.status.ev = true → t.status.ev = false →
      i.isGentab = true ∧ s.engine.kind.usesTable = true ∧ t.status.done = true) ∧
    (s.status.ev = false → t.status.ev = true → i.isBuild = true ∧ t.status.done = true) ∧
    (s.status.tv = true → t.status.tv = true) := by
  cases h with
  | failed e => simp +contextual
  | produced v => simp +contextual
  | generated c hgen _ => simp +contextual [State.generate, hgen]
  | constructed k hbuild _ _ => simp +contextual [hbuild]
  | acknowledged => simp +contextual
  | reset hsrst => exact absurd hsrst hi

/-- A host operation but the reset leaves `STATUS` alone. -/
theorem State.hostOperation_status (s : State) {i : Input} (h : i ≠ .reset) : (s.hostOperation i).status = s.status := by
  cases i with
  | write space a v => exact s.portWrite_status space a v
  | read space a => rfl
  | reset => exact absurd rfl h

/-- Settles O55: of all steps only a command writes `EV` or `TV`, and of all commands only the named ones. -/
theorem enginesAndTablesLastUntilTheNamedEvents : Obligations.EnginesAndTablesLastUntilTheNamedEvents := by
  refine ⟨fun i s t h hi => (exec_effect h).engine_table_life hi, fun s t hstep hreset hsrst => ?_⟩
  rcases step_cases hstep with ⟨-, rfl⟩ | ⟨i, rest, hs, ⟨c, j, hc, hd, hexec⟩ | ⟨c, e, -, -, rfl⟩ | ⟨-, rfl⟩⟩
  · simp +contextual
  · rw [commandValue_some hc] at hs
    obtain ⟨hgoes, hcomes, htable⟩ := (exec_effect hexec).engine_table_life fun hj => hsrst c rest hs (hj ▸ hd)
    refine ⟨fun h1 h2 => ?_, fun h1 h2 => ?_, htable⟩
    · obtain ⟨hgen, htab, hdone⟩ := hgoes h1 h2
      exact ⟨htab, hdone, c, j, rest, hs, hd, hgen⟩
    · obtain ⟨hbuild, hdone⟩ := hcomes h1 h2
      exact ⟨hdone, c, j, rest, hs, hd, hbuild⟩
  · simp +contextual
  · simp +contextual [State.hostOperation_status _ fun hi : i = .reset => hreset rest (hi ▸ hs)]

/-! ### Updates a calculation does not see -/

/-- An update of the state that commutes with both ends of a command. -/
structure PassesEnds (u : State → State) : Prop where
  raiseError (s : State) (e : Err) : (u s).raiseError e = u (s.raiseError e)
  finish (s : State) (v : Nat) : ((u s).setResult v).complete = u (s.setResult v).complete

/-- The update passes a checked command whose checks it does not change. -/
theorem PassesEnds.guarded {u : State → State} (hu : PassesEnds u) {checks : List (Bool × Err)} {s t : State}
    {go go' : State → Out} (hgo : go s = .next t → go' (u s) = .next (u t)) (h : s.guarded checks go = .next t) :
    (u s).guarded checks go' = .next (u t) := by
  rcases guarded_next h with ⟨e, hc, rfl⟩ | ⟨hc, hg⟩
  · rw [guarded_fail _ _ hc, hu.raiseError]
  · rw [guarded_pass _ _ hc, hgo hg]

/-- The update passes a calculation on the same engine with the same value. -/
theorem PassesEnds.calculate {u : State → State} (hu : PassesEnds u) {s t : State} {r : Except Err Nat}
    (he : (u s).engine = s.engine) (h : s.calculate r = .next t) : (u s).calculate r = .next (u t) := by
  obtain ⟨hneg, ⟨v, rfl, rfl⟩ | ⟨e, rfl, rfl⟩⟩ := calculate_next h
  · simp [State.calculate, he, hneg, State.finishWith, hu.finish]
  · simp [State.calculate, he, hneg, State.finishWith, hu.raiseError]

/-- `CALC` answers alike when the update changes neither its checks nor its value (R130). -/
theorem PassesEnds.exec_calcBuffer {u : State → State} (hu : PassesEnds u) {s t : State} {so : Bool}
    (hchecks : (u s).calcChecks so = s.calcChecks so) (he : (u s).engine = s.engine)
    (hrun : (u s).runEngine ((u s).seed0 so) = s.runEngine (s.seed0 so)) (h : exec (.calcBuffer so) s = .next t) :
    exec (.calcBuffer so) (u s) = .next (u t) := by
  rw [exec, execCalc] at h ⊢
  rw [hchecks]
  exact hu.guarded (fun hg => by rw [hrun]; exact hu.calculate he hg) h

/-- `CALCW` answers alike when the update changes neither its checks nor its window's value (R132). -/
theorem PassesEnds.exec_calcWindow {u : State → State} (hu : PassesEnds u) {s t : State} {so dl : Bool}
    (hchecks : (u s).calcwChecks so = s.calcwChecks so) (he : (u s).engine = s.engine)
    (hrun : calcWin (u s).engine (u s).dataByte (u s).dlen.toNat (u s).windowStart ((u s).windowLength dl) ((u s).seed0 so) =
      calcWin s.engine s.dataByte s.dlen.toNat s.windowStart (s.windowLength dl) (s.seed0 so))
    (h : exec (.calcWindow so dl) s = .next t) : exec (.calcWindow so dl) (u s) = .next (u t) := by
  rw [exec, execCalcw] at h ⊢
  rw [hchecks]
  exact hu.guarded (fun hg => by rw [hrun]; exact hu.calculate he hg) h

/-- Other staged registers (R26 to R32). -/
def State.withStaged (p : Params) (v : Word) (s : State) : State := { s with params := p, opa := v }

/-- Another `LENGTH` (R36). -/
def State.withLength (v : Word) (s : State) : State := { s with length := v }

theorem State.withStaged_passesEnds (p : Params) (v : Word) : PassesEnds (State.withStaged p v) :=
  ⟨fun _ _ => rfl, fun _ _ => rfl⟩

theorem State.withLength_passesEnds (v : Word) : PassesEnds (State.withLength v) := ⟨fun _ _ => rfl, fun _ _ => rfl⟩

/-- Settles O50: neither the checks nor the values of `CALC` and `CALCW` read a staged register. -/
theorem stagedParametersDoNotReachTheEngine : Obligations.StagedParametersDoNotReachTheEngine := by
  rintro s t p v i (⟨so, rfl⟩ | ⟨so, dl, rfl⟩) h
  · exact (State.withStaged_passesEnds p v).exec_calcBuffer rfl rfl rfl h
  · exact (State.withStaged_passesEnds p v).exec_calcWindow rfl rfl rfl h

/-- With `DL = 1` the window ends with the buffer (R161). -/
theorem State.windowLength_true (s : State) : s.windowLength true = 8 * (s.dlen.toNat : Int) - s.start.toInt := if_pos rfl

/-- Settles O44: with `DL = 1` the window's length is the remainder, whatever `LENGTH` holds. -/
theorem defaultLengthIsTheRemainder : Obligations.DefaultLengthIsTheRemainder := by
  intro s so v _ _ _
  refine ⟨fun t h => ?_, fun hlen => ?_⟩
  · refine (State.withLength_passesEnds v).exec_calcWindow rfl rfl ?_ h
    rw [State.windowLength_true, State.windowLength_true]
    rfl
  · have hwin : s.windowLength true = s.windowLength false := hlen.symm
    simp only [exec, execCalcw, State.guarded, hwin]

end Sys2Proof.Machine
end

section
/-! Proof that no command reads the outcome of an earlier one (10_state.md R38, 60_exceptions.md R191): error entry overwrites all of it, completion all but `RESULT`, `RV` and `ESTK`, and no check and no value reads it. -/

namespace Sys2Proof.Machine

/-- What an earlier command may have left in `DONE`, `ERR`, `RV`, `ESTK`, `ERRCODE` and `RESULT`. -/
structure Leftovers where
  done : Bool
  err : Bool
  rv : Bool
  estk : Bool
  code : Byte
  result : Word

/-- The state with other leftovers. -/
def State.withLeftovers (o : Leftovers) (s : State) : State :=
  { s with errcode := o.code, result := o.result,
           status := { s.status with done := o.done, err := o.err, rv := o.rv, estk := o.estk } }

/-- The commands that write `RESULT` when they complete (R136). -/
def Instr.produces : Instr → Bool
  | .rev _ | .calcBuffer _ | .calcWindow _ _ => true
  | _ => false

theorem Instr.produces_iff {i : Instr} : Instr.produces i = true ↔
    (∃ n, i = .rev n) ∨ (∃ so, i = .calcBuffer so) ∨ (∃ so dl, i = .calcWindow so dl) := by
  cases i <;> simp [Instr.produces]

/-- Two ends of a command: equal but for what it has not overwritten, and in `RESULT` and `RV` too where it writes them. -/
def EndAlike (i : Instr) (t u : State) : Prop :=
  u = { t with result := u.result, status := { t.status with rv := u.status.rv, estk := u.status.estk } } ∧
    (Instr.produces i = true ∨ t.status.err = true → u.result = t.result ∧ u.status.rv = t.status.rv)

theorem EndAlike.refl (i : Instr) (t : State) : EndAlike i t t := ⟨rfl, fun _ => ⟨rfl, rfl⟩⟩

/-- Error entry overwrites all leftovers (R190). -/
theorem State.raiseError_withLeftovers (o : Leftovers) (s : State) (e : Err) :
    (s.withLeftovers o).raiseError e = s.raiseError e := rfl

/-- A result overwrites all leftovers but `ESTK` (R130, R189). -/
theorem EndAlike.setResult (i : Instr) (o : Leftovers) (s : State) (v : Nat) :
    EndAlike i (s.setResult v).complete ((s.withLeftovers o).setResult v).complete := ⟨rfl, fun _ => ⟨rfl, rfl⟩⟩

/-- A command that completes without a result keeps `RESULT`, `RV` and `ESTK` as they were left (R189). -/
theorem EndAlike.complete {i : Instr} (hi : Instr.produces i = false) (o : Leftovers) (s : State) :
    EndAlike i s.complete (s.withLeftovers o).complete := ⟨rfl, fun hp => absurd hp (by simp [hi])⟩

/-- A checked command answers alike from other leftovers when it does after its checks. -/
theorem guarded_withLeftovers {i : Instr} (o : Leftovers) {checks : List (Bool × Err)} {s t : State} {go go' : State → Out}
    (h : s.guarded checks go = .next t)
    (hgo : go s = .next t → ∃ u, go' (s.withLeftovers o) = .next u ∧ EndAlike i t u) :
    ∃ u, (s.withLeftovers o).guarded checks go' = .next u ∧ EndAlike i t u := by
  rcases guarded_next h with ⟨e, hc, rfl⟩ | ⟨hc, hg⟩
  · exact ⟨_, s.raiseError_withLeftovers o e ▸ guarded_fail _ _ hc, .refl i _⟩
  · rw [guarded_pass _ _ hc]
    exact hgo hg

/-- A calculation of the same value ends alike from other leftovers. -/
theorem calculate_withLeftovers (i : Instr) (o : Leftovers) {s t : State} {r : Except Err Nat}
    (h : s.calculate r = .next t) : ∃ u, (s.withLeftovers o).calculate r = .next u ∧ EndAlike i t u := by
  obtain ⟨hneg, hr⟩ := calculate_next h
  refine ⟨(s.withLeftovers o).finishWith r, if_neg (by simpa [State.withLeftovers] using hneg), ?_⟩
  rcases hr with ⟨v, rfl, rfl⟩ | ⟨e, rfl, rfl⟩
  · exact .setResult i o s v
  · exact .refl i _

theorem State.generate_withLeftovers (o : Leftovers) (c : Conv) (s : State) :
    (s.withLeftovers o).generate c = (s.generate c).withLeftovers o := rfl

theorem State.latchEngine_withLeftovers (o : Leftovers) (k : Kind) (s : State) :
    (s.withLeftovers o).latchEngine k = (s.latchEngine k).withLeftovers o := rfl

theorem State.buildTable_withLeftovers (o : Leftovers) (k : Kind) (s : State) :
    (s.withLeftovers o).buildTable k = (s.buildTable k).withLeftovers o := by
  cases k with
  | tlsb => exact s.generate_withLeftovers o .lsb
  | tmsb => exact s.generate_withLeftovers o .msb
  | gmsb | glsb | win => rfl

theorem construct_withLeftovers {i : Instr} (hi : Instr.produces i = false) (o : Leftovers) (k : Kind) (s : State) :
    EndAlike i (s.construct k) ((s.withLeftovers o).construct k) := by
  unfold State.construct
  rw [State.latchEngine_withLeftovers, State.buildTable_withLeftovers]
  exact .complete hi _ _

theorem gentab_withLeftovers {i : Instr} (hi : Instr.produces i = false) (o : Leftovers) (c : Conv) {s t : State}
    (h : s.gentab c = .next t) : ∃ u, (s.withLeftovers o).gentab c = .next u ∧ EndAlike i t u := by
  unfold State.gentab at h ⊢
  refine guarded_withLeftovers o h fun hg => ⟨_, rfl, ?_⟩
  cases hg
  rw [State.generate_withLeftovers]
  exact .complete hi o (s.generate c).invalidateEngine

theorem build_withLeftovers {i : Instr} (hi : Instr.produces i = false) (o : Leftovers) (k : Kind) {s t : State}
    (h : s.build k = .next t) : ∃ u, (s.withLeftovers o).build k = .next u ∧ EndAlike i t u := by
  unfold State.build at h ⊢
  refine guarded_withLeftovers o h fun hg => ⟨_, rfl, ?_⟩
  cases hg
  exact construct_withLeftovers hi o k s

/-- Every command but `SRST` ends alike from other leftovers. -/
theorem exec_withLeftovers {i : Instr} (hi : i ≠ .srst) (o : Leftovers) {s t : State} (h : exec i s = .next t) :
    ∃ u, exec i (s.withLeftovers o) = .next u ∧ EndAlike i t u := by
  cases i with
  | rev n =>
    rw [exec, execRev] at h ⊢
    refine guarded_withLeftovers o h fun hg => ⟨_, rfl, ?_⟩
    cases hg
    exact .setResult _ o s _
  | gentabM => exact gentab_withLeftovers rfl o .msb h
  | gentabL => exact gentab_withLeftovers rfl o .lsb h
  | buildTlsb => exact build_withLeftovers rfl o .tlsb h
  | buildTmsb => exact build_withLeftovers rfl o .tmsb h
  | buildGmsb => exact build_withLeftovers rfl o .gmsb h
  | buildGlsb => exact build_withLeftovers rfl o .glsb h
  | buildWin => exact build_withLeftovers rfl o .win h
  | buildAuto =>
    rw [exec, execBuildAuto] at h ⊢
    refine guarded_withLeftovers o h fun hg => ⟨_, rfl, ?_⟩
    cases hg
    exact construct_withLeftovers rfl o _ s
  | calcBuffer so =>
    rw [exec, execCalc] at h ⊢
    exact guarded_withLeftovers o h (calculate_withLeftovers _ o)
  | calcWindow so dl =>
    rw [exec, execCalcw] at h ⊢
    exact guarded_withLeftovers o h (calculate_withLeftovers _ o)
  | clrerr =>
    cases h
    exact ⟨_, rfl, rfl, fun hp => absurd hp (by simp [Instr.produces])⟩
  | srst => exact absurd rfl hi

/-- Settles O49. -/
theorem noCommandReadsTheOutcomeOfAnEarlierOne : Obligations.NoCommandReadsTheOutcomeOfAnEarlierOne := by
  intro i s t done err rv estk code res hi h
  obtain ⟨u, hu, hsame, hresult⟩ := exec_withLeftovers hi ⟨done, err, rv, estk, code, res⟩ h
  exact ⟨u, hu, hsame, by simpa only [Instr.produces_iff, or_assoc] using hresult⟩

end Sys2Proof.Machine
end

section
/-! Proofs of the statements about the host port (20_memory.md R60 to R65): accesses without a meaning, a byte written to `DATA`, and what a read does. -/

namespace Sys2Proof.Machine

/-! ### Register numbers without a meaning -/

/-- A write to a register that is not `RW` is ignored (R63). -/
theorem State.writeReg_of_not_isRw (s : State) (v : Word) {r : Reg} (h : r.isRw = false) : s.writeReg v r = s := by
  cases r
  case poly | width | seed | xorout | flags | opa | seedovr | dlen | start | length => cases h
  all_goals rfl

/-- The `RW` registers have the numbers that R46 marks `RW`. -/
theorem Reg.number_mem_of_isRw {r : Reg} (h : r.isRw = true) :
    r.number ∈ [0x08, 0x09, 0x0A, 0x0B, 0x0C, 0x0D, 0x0E, 0x10, 0x11, 0x12] :=
  List.mem_map_of_mem (f := Reg.number) (of_decide_eq_true h)

/-- The other registers but `CMD` have the numbers that R46 marks `RO`. -/
theorem Reg.number_mem_of_not_isRw {r : Reg} (h : r.isRw = false) (hcmd : r ≠ .cmd) :
    r.number ∈ [0x00, 0x01, 0x03, 0x04, 0x18, 0x20, 0x21, 0x22, 0x23, 0x24, 0x28, 0x29] := by
  revert h hcmd
  cases r <;> decide

/-- Every register number is below `0x40` (R60). -/
theorem Reg.number_lt (r : Reg) : r.number < 0x40 := by cases r <;> decide

/-- No register has a number of `0x40` or more (log 11). -/
theorem Reg.ofNumber_of_ge {n : Nat} (h : 0x40 ≤ n) : Reg.ofNumber n = none := by
  cases hr : Reg.ofNumber n with
  | none => rfl
  | some r =>
    have hlt := r.number_lt
    rw [← Reg.eq_number_of_ofNumber hr] at hlt
    omega

/-! ### Reads and writes by space -/

theorem State.portRead_unimplemented (s : State) {n : Nat} (h : Reg.ofNumber n = none) : s.portRead .reg n = 0#64 := by
  simp [State.portRead, h]

theorem State.portWrite_unimplemented (s : State) (v : Word) {n : Nat} (h : Reg.ofNumber n = none) :
    s.portWrite .reg n v = s := by
  simp [State.portWrite, h]

/-- A write to a number that is not `RW` is ignored, `CMD` apart, whose writes are commands (R63). -/
theorem State.portWrite_not_rw (s : State) (v : Word) {n : Nat}
    (h : n ∉ [0x08, 0x09, 0x0A, 0x0B, 0x0C, 0x0D, 0x0E, 0x10, 0x11, 0x12]) : s.portWrite .reg n v = s := by
  cases hr : Reg.ofNumber n with
  | none => exact s.portWrite_unimplemented v hr
  | some r =>
    have hrw : r.isRw = false := Bool.eq_false_iff.mpr fun hrw =>
      h (Reg.eq_number_of_ofNumber hr ▸ Reg.number_mem_of_isRw hrw)
    simp [State.portWrite, hr, s.writeReg_of_not_isRw v hrw]

/-- A number that is neither `RW` nor `RO` is `CMD` or unimplemented, and reads 0 (R25, R63). -/
theorem State.portRead_not_rw_ro (s : State) {n : Nat}
    (hrw : n ∉ [0x08, 0x09, 0x0A, 0x0B, 0x0C, 0x0D, 0x0E, 0x10, 0x11, 0x12])
    (hro : n ∉ [0x00, 0x01, 0x03, 0x04, 0x18, 0x20, 0x21, 0x22, 0x23, 0x24, 0x28, 0x29]) :
    s.portRead .reg n = 0#64 := by
  cases hr : Reg.ofNumber n with
  | none => exact s.portRead_unimplemented hr
  | some r =>
    obtain rfl := Reg.eq_number_of_ofNumber hr
    rw [State.portRead_number]
    by_cases hcmd : r = .cmd
    · rw [hcmd]
      rfl
    · cases hb : r.isRw with
      | true => exact absurd (Reg.number_mem_of_isRw hb) hrw
      | false => exact absurd (Reg.number_mem_of_not_isRw hb hcmd) hro

theorem State.portWrite_data_of_lt (s : State) (v : Word) {a : Nat} (h : a < 4096) :
    s.portWrite .data a v = s.writeData a (v.setWidth 8) := if_pos h

theorem State.portWrite_data_of_ge (s : State) (v : Word) {a : Nat} (h : 4096 ≤ a) : s.portWrite .data a v = s :=
  if_neg (Nat.not_lt.mpr h)

theorem State.portRead_data_of_lt (s : State) {a : Nat} (h : a < 4096) :
    s.portRead .data a = (s.dataByte a).setWidth 64 := if_pos h

theorem State.portRead_data_of_ge (s : State) {a : Nat} (h : 4096 ≤ a) : s.portRead .data a = 0#64 :=
  if_neg (Nat.not_lt.mpr h)

theorem State.portRead_tab_of_lt (s : State) {i : Nat} (h : i < 256) : s.portRead .tab i = s.tableEntry i := if_pos h

theorem State.portRead_tab_of_ge (s : State) {i : Nat} (h : 256 ≤ i) : s.portRead .tab i = 0#64 :=
  if_neg (Nat.not_lt.mpr h)

/-! ### What a port operation leaves as it reads -/

/-- No read looks at the script (log 1). -/
@[simp] theorem State.portRead_advance (s : State) (rest : List Input) (space : Space) (a : Nat) :
    (s.advance rest).portRead space a = s.portRead space a := by
  cases space with
  | reg =>
    unfold State.portRead
    cases Reg.ofNumber a with
    | none => rfl
    | some r => cases r <;> rfl
  | data | tab => rfl

/-- No register reads a byte of `DATA`. -/
@[simp] theorem State.portRead_reg_writeData (s : State) (a : Nat) (b : Byte) (n : Nat) :
    (s.writeData a b).portRead .reg n = s.portRead .reg n := by
  unfold State.portRead
  cases Reg.ofNumber n with
  | none => rfl
  | some r => cases r <;> rfl

/-- The address written reads as the byte written (R65). -/
theorem State.portRead_data_writeData_same (s : State) {a : Nat} (h : a < 4096) (b : Byte) :
    (s.writeData a b).portRead .data a = b.setWidth 64 := by
  rw [State.portRead_data_of_lt _ h, State.dataByte_writeData_same]

/-! ### The steps -/

/-- A write of the port is no command unless it is to register number 2 (R25, R61). -/
theorem commandValue_write_reg {n : Nat} (h : n ≠ 2) (v : Word) : (Input.write .reg n v).commandValue = none := if_neg h

/-- A write that changes nothing leaves only the script moved on (R63). -/
theorem step_ignored_write {s : State} {space : Space} {a : Nat} {v : Word} {rest : List Input}
    (hs : s.script = .write space a v :: rest) (hcmd : (Input.write space a v).commandValue = none)
    (hnone : (s.advance rest).portWrite space a v = s.advance rest) : step s = .next { s with script := rest } := by
  rw [step_hostOperation hs hcmd, State.hostOperation, hnone, State.advance]

/-- A write inside `DATA` stores its low byte (R63, R65). -/
theorem step_writeData {s : State} {a : Nat} {v : Word} {rest : List Input} (ha : a < 4096)
    (hs : s.script = .write .data a v :: rest) : step s = .next ((s.advance rest).writeData a (v.setWidth 8)) := by
  rw [step_hostOperation hs rfl, State.hostOperation, State.portWrite_data_of_lt _ v ha]

/-- A read changes the list of observed values only (R61, R68). -/
theorem step_read {s : State} {space : Space} {a : Nat} {rest : List Input} (hs : s.script = .read space a :: rest) :
    step s = .next { s with script := rest, reads := s.reads ++ [s.portRead space a] } := by
  rw [step_hostOperation hs rfl, State.hostOperation, State.portRead_advance]
  rfl

/-! ### The statements -/

/-- Settles O6. -/
theorem hostReadOnlyObserves : Obligations.HostReadOnlyObserves :=
  fun s _ _ _ hs => ⟨⟨_, step_read hs, rfl⟩, fun _ => s.portRead_tab_of_lt, fun _ => s.portRead_data_of_lt⟩

/-- Settles O7: the port ignores each such write and answers 0 to each such read; a `DATA` write in range stores the low byte. -/
theorem meaninglessAccessesAreIgnored : Obligations.MeaninglessAccessesAreIgnored := by
  intro s v n rest rw ro
  refine ⟨fun _ hrw h2 hs => ?_, fun _ => s.portRead_not_rw_ro, fun hn hs => ?_, s.portRead_data_of_ge, fun hs => ?_,
    s.portRead_tab_of_ge, fun hn hs => ⟨_, step_writeData hn hs, ?_⟩⟩
  · exact step_ignored_write hs (commandValue_write_reg h2 v) (State.portWrite_not_rw _ v hrw)
  · exact step_ignored_write hs rfl (State.portWrite_data_of_ge _ v hn)
  · exact step_ignored_write hs rfl rfl
  · rw [State.portRead_data_writeData_same _ hn, BitVec.toNat_setWidth, BitVec.toNat_setWidth]
    omega

/-- Settles O56, the model's choice of log 11: no register has such a number. -/
theorem numbersAboveTheMapAreUnimplemented : Obligations.NumbersAboveTheMapAreUnimplemented := by
  intro s v n rest hn
  have hnone := Reg.ofNumber_of_ge hn
  refine ⟨fun hs => ?_, fun hs => ?_⟩
  · exact step_ignored_write hs (commandValue_write_reg (by omega) v) (State.portWrite_unimplemented _ v hnone)
  · rw [step_read hs, s.portRead_unimplemented hnone]

/-- The low byte of a word, read back as a word. -/
theorem setWidth_setWidth_byte (v : Word) : (v.setWidth 8).setWidth 64 = v &&& 0xFF#64 := by
  apply BitVec.eq_of_toNat_eq
  rw [BitVec.toNat_and, BitVec.toNat_setWidth, BitVec.toNat_setWidth, BitVec.toNat_ofNat,
    show 0xFF % 2 ^ 64 = 2 ^ 8 - 1 from rfl, Nat.and_two_pow_sub_one_eq_mod]
  omega

/-- Settles O10: the step is `writeData`, whose laws are those of the byte memory. -/
theorem dataWriteStoresOneByte : Obligations.DataWriteStoresOneByte := by
  intro s v a rest ha hs
  refine ⟨_, step_writeData ha hs, rfl, ?_, fun x hx => ?_, fun n => ?_, fun i => ?_, fun hwf => ?_⟩
  · rw [State.portRead_data_writeData_same _ ha, setWidth_setWidth_byte]
  · rw [State.dataByte_writeData_other _ _ hx]
    rfl
  · rw [State.portRead_reg_writeData, State.portRead_advance]
  · rfl
  · exact Memory.write_wf hwf ha _

end Sys2Proof.Machine
end

section
/-! Proofs of the statements about the bytes a calculation consumes (20_memory.md R65, R68): `CALC` and `CALCW` those below `DLEN`, a window those between its first and its last bit. -/

namespace Sys2Proof.Machine

/-! ### Windows -/

/-- The range checks in arithmetic words (R162). -/
theorem windowChecks_pass {n : Nat} {start length : Int} : firstFailing (windowChecks n start length) = none ↔
    0 ≤ start ∧ start < 8 * (n : Int) ∧ 0 ≤ length ∧ length ≤ 8 * (n : Int) - start := by
  simp [firstFailing_none, windowChecks]

/-- The loop reads the affected bytes `first .. last` only (R163, R164). -/
theorem windowLoop_congr (e : Engine) {rd rd' : Nat → Byte} {start length : Nat}
    (h : 0 < length → ∀ b, winFirst start ≤ b → b ≤ winLast start length → rd b = rd' b) (reg : Nat) :
    windowLoop e rd start length reg = windowLoop e rd' start length reg := by
  unfold windowLoop
  by_cases hlen : length = 0
  · rw [if_pos hlen, if_pos hlen]
  · rw [if_neg hlen, if_neg hlen]
    apply forLoop_congr
    intro k hk
    simp only [h (by omega) (winFirst start + k) (by omega) (by omega)]

/-- A windowed calculation reads no byte when a range check fails, and otherwise those of its loop (R162, R168). -/
theorem calcWin_congr (e : Engine) {rd rd' : Nat → Byte} {n : Nat} {start length : Int}
    (h : firstFailing (windowChecks n start length) = none → 0 < length.toNat →
      ∀ b, winFirst start.toNat ≤ b → b ≤ winLast start.toNat length.toNat → rd b = rd' b) (seed0 : Nat) :
    calcWin e rd n start length seed0 = calcWin e rd' n start length seed0 := by
  unfold calcWin
  cases hc : firstFailing (windowChecks n start length) with
  | some err => rfl
  | none => simp only [windowLoop_congr e (h hc)]

/-- Settles O53: a window that passes its checks starts at no negative bit, so its bytes are the loop's. -/
theorem windowReadsOnlyItsBytes : Obligations.WindowReadsOnlyItsBytes := by
  intro e rd rd' n start length seed0 h
  refine calcWin_congr e (fun hc hlen b hfirst hlast => ?_) seed0
  obtain ⟨hstart, -, -, -⟩ := windowChecks_pass.mp hc
  unfold winFirst at hfirst
  unfold winLast at hlast
  exact h (by omega) b (by omega) (by omega)

/-- A window that passes its checks ends below byte `n`. -/
theorem calcWin_congr_below (e : Engine) {rd rd' : Nat → Byte} {n : Nat} (h : ∀ a, a < n → rd a = rd' a)
    (start length : Int) (seed0 : Nat) : calcWin e rd n start length seed0 = calcWin e rd' n start length seed0 := by
  refine calcWin_congr e (fun hc _ b _ hlast => h b ?_) seed0
  obtain ⟨hstart, hlow, hlength, hend⟩ := windowChecks_pass.mp hc
  unfold winLast at hlast
  omega

/-! ### Whole-buffer engines -/

section
variable {e : Engine} {tab tab' : Nat → Nat} {rd rd' : Nat → Byte} {n : Nat}

/-- The LSB-first table engine reads `n` bytes and the 256 entries: its index is a byte (R141). -/
theorem calcTlsb_congr (hrd : ∀ a, a < n → rd a = rd' a) (htab : ∀ i, i < 256 → tab i = tab' i) :
    calcTlsb e tab rd n = calcTlsb e tab' rd' n := by
  unfold calcTlsb
  congr 1
  apply forLoop_congr
  intro k hk
  funext reg
  have hlow : reg &&& 0xFF < 2 ^ 8 := Nat.and_lt_two_pow reg (by decide)
  rw [stepTlsb, stepTlsb, hrd k hk, htab _ (Nat.xor_lt_two_pow hlow (rd' k).isLt)]

/-- A byte leaves the register of a well-built engine within its width (R143). -/
theorem Engine.WellBuilt.stepTmsb_lt (h : e.WellBuilt) (v : Byte) (reg : Nat) :
    stepTmsb e tab v reg < 2 ^ e.width.toNat := by
  rw [stepTmsb, h.emask_eq, and_mask]
  exact Nat.mod_lt _ (Nat.two_pow_pos _)

/-- The MSB-first table engine reads `n` bytes and the 256 entries: its register never outgrows its width, so the index is a byte (R143, R144). -/
theorem calcTmsb_congr (he : e.WellBuilt) (hw : 8 ≤ e.width.toNat) (hrd : ∀ a, a < n → rd a = rd' a)
    (htab : ∀ i, i < 256 → tab i = tab' i) : calcTmsb e tab rd n = calcTmsb e tab' rd' n := by
  unfold calcTmsb
  congr 1
  refine (forLoop_rel (fun x y => x = y ∧ x < 2 ^ e.width.toNat) _ _ n ?_ _ _ ⟨rfl, he.eseed_lt⟩).1
  rintro k reg _ hk ⟨rfl, hreg⟩
  refine ⟨?_, he.stepTmsb_lt _ reg⟩
  have htop : reg >>> (e.width.toNat - 8) < 2 ^ 8 := by
    rw [Nat.shiftRight_eq_div_pow]
    exact Nat.div_lt_of_lt_mul (by rwa [← Nat.pow_add, Nat.sub_add_cancel hw])
  rw [stepTmsb, stepTmsb, hrd k hk, htab _ (Nat.xor_lt_two_pow htop (rd' k).isLt)]

/-- The generic MSB-first engine reads `n` bytes (R151). -/
theorem calcGmsb_congr (hrd : ∀ a, a < n → rd a = rd' a) (seed0 : Nat) :
    calcGmsb e rd n seed0 = calcGmsb e rd' n seed0 := by
  unfold calcGmsb
  rw [forLoop_congr _ (fun k => absorbMsb e 8 (e.reflectIn (rd' k))) _ n fun k hk => by rw [hrd k hk]]

/-- The generic LSB-first engine reads `n` bytes (R154). -/
theorem calcGlsb_congr (hrd : ∀ a, a < n → rd a = rd' a) (seed0 : Nat) :
    calcGlsb e rd n seed0 = calcGlsb e rd' n seed0 := by
  unfold calcGlsb
  rw [forLoop_congr _ (fun k => absorbLsb e (rd' k)) _ n fun k hk => by rw [hrd k hk]]

end

/-! ### Other contents of `DATA` -/

/-- The state with other bytes in `DATA`, listed and free ones; the draw also stands for the free entries of `TABLE` (logs 4, 5, 6). -/
def State.withMemory (m : Memory) (d : Nat) (s : State) : State := { s with data := m, draws := d }

@[simp] theorem State.withMemory_engine (m : Memory) (d : Nat) (s : State) : (s.withMemory m d).engine = s.engine := rfl
@[simp] theorem State.withMemory_dlen (m : Memory) (d : Nat) (s : State) : (s.withMemory m d).dlen = s.dlen := rfl

theorem State.withMemory_passesEnds (m : Memory) (d : Nat) : PassesEnds (State.withMemory m d) :=
  ⟨fun _ _ => rfl, fun _ _ => rfl⟩

theorem genMsbPasses_length (poly w p : Nat) : (genMsbPasses poly w p).2.length = 2 ^ p := by
  induction p with
  | zero => rfl
  | succ p ih => simp [genMsbPasses, ih, Nat.pow_succ, Nat.mul_two]

theorem genLsbPasses_length (rpoly p : Nat) : (genLsbPasses rpoly p).2.length = 2 ^ p := by
  induction p with
  | zero => rfl
  | succ p ih => simp [genLsbPasses, List.length_flatMap, ih, Nat.pow_succ]

/-- A generated table has 256 entries (R110). -/
@[simp] theorem genTable_length (c : Conv) (poly w : Nat) : (genTable c poly w).length = 256 := by
  cases c with
  | msb => exact genMsbPasses_length poly w 8
  | lsb => exact genLsbPasses_length _ 8

theorem State.Inv.table_length {s : State} (h : s.Inv) (htv : s.status.tv = true) : s.table.length = 256 := by
  obtain ⟨-, -, -, htable⟩ := h.table_ok htv
  simp [htable]

/-- No entry of a valid table is a free value. -/
theorem State.Inv.tableEntry_withMemory {s : State} (h : s.Inv) (htv : s.status.tv = true) (m : Memory) (d : Nat)
    {i : Nat} (hi : i < 256) : (s.withMemory m d).tableEntry i = s.tableEntry i := by
  have hlt : i < s.table.length := by rwa [h.table_length htv]
  simp [State.tableEntry, State.withMemory, hlt]

/-- The built engine of a sound state reads the bytes below `DLEN` and, with a table kind, the valid table (R130, R140). -/
theorem State.Inv.runEngine_withMemory {s : State} (h : s.Inv) (hev : s.status.ev = true) {m : Memory} {d : Nat}
    (hrd : ∀ a, a < s.dlen.toNat → (s.withMemory m d).dataByte a = s.dataByte a) (seed0 : Nat) :
    (s.withMemory m d).runEngine seed0 = s.runEngine seed0 := by
  have hwb := h.engine_ok hev
  have htab : s.engine.kind.usesTable = true → ∀ i, i < 256 →
      ((s.withMemory m d).tableEntry i).toNat = (s.tableEntry i).toNat := fun hk i hi => by
    rw [h.tableEntry_withMemory (h.engine_table hev hk).1 m d hi]
  unfold State.runEngine
  simp only [State.withMemory_engine, State.withMemory_dlen]
  cases hk : s.engine.kind with
  | tlsb => exact congrArg Except.ok (calcTlsb_congr hrd (htab (by rw [hk]; rfl)))
  | tmsb => exact congrArg Except.ok (calcTmsb_congr hwb (hwb.tmsb_conv hk).2 hrd (htab (by rw [hk]; rfl)))
  | gmsb => exact congrArg Except.ok (calcGmsb_congr hrd seed0)
  | glsb => exact congrArg Except.ok (calcGlsb_congr hrd seed0)
  | win => exact calcWin_congr_below s.engine hrd 0 _ seed0

/-- With no engine built `CALC` ends in its first check's error (R130). -/
theorem exec_calcBuffer_noEngine {s : State} (h : s.status.ev = false) (so : Bool) :
    exec (.calcBuffer so) s = .next (s.raiseError .illNoengine) := by
  rw [exec, execCalc]
  exact guarded_fail s _ (by simp [State.calcChecks, firstFailing, h])

/-- Settles O52: without an engine both answer the same error, and with one both calculate the same value. -/
theorem calculationsReadOnlyTheirBytes : Obligations.CalculationsReadOnlyTheirBytes := by
  rintro s t m d i (⟨so, rfl⟩ | ⟨so, dl, rfl⟩) hinv hrd h
  · cases hev : s.status.ev with
    | true => exact (State.withMemory_passesEnds m d).exec_calcBuffer rfl rfl (hinv.runEngine_withMemory hev hrd _) h
    | false =>
      rw [exec_calcBuffer_noEngine hev] at h
      cases h
      exact exec_calcBuffer_noEngine (s := s.withMemory m d) hev so
  · exact (State.withMemory_passesEnds m d).exec_calcWindow rfl rfl (calcWin_congr_below s.engine hrd _ _ _) h

end Sys2Proof.Machine
end

section
/-! Proofs of the statements about the command word (30_encoding.md R80 to R86): which row of the opcode table a value written to `CMD` meets, and what the decoder answers when it meets none. -/

namespace Sys2Proof

/-! ### When a value meets a row of the opcode table -/

/-- A mask that clears one field keeps what stands above the field and what stands below it. -/
theorem and_fieldMask (x hi lo len : Nat) : x &&& (2 ^ (lo + len) * (2 ^ hi - 1) + (2 ^ lo - 1)) =
    2 ^ (lo + len) * (x / 2 ^ (lo + len) % 2 ^ hi) + x % 2 ^ lo := by
  have hdvd : 2 ^ lo ∣ 2 ^ (lo + len) := Nat.pow_dvd_pow 2 (Nat.le_add_right lo len)
  have hlt : 2 ^ lo - 1 < 2 ^ (lo + len) := by
    have hle := Nat.le_of_dvd (Nat.two_pow_pos _) hdvd
    have hpos := Nat.two_pow_pos lo
    omega
  rw [← Nat.div_add_mod (x &&& _) (2 ^ (lo + len)), Nat.and_div_two_pow, Nat.and_mod_two_pow,
    Nat.mul_add_div (Nat.two_pow_pos _), Nat.mul_add_mod, Nat.div_eq_of_lt hlt, Nat.mod_eq_of_lt hlt, Nat.add_zero,
    Nat.and_two_pow_sub_one_eq_mod, Nat.and_two_pow_sub_one_eq_mod, Nat.mod_mod_of_dvd _ hdvd]

/-- The value `c` is a command of this row: its upper half is zero and its lower half meets R83's exact match under the mask (R86). -/
def OpcodeRow.Matches (r : OpcodeRow) (c : Word) : Prop :=
  c.extractLsb' 32 32 = 0#32 ∧ c.extractLsb' 0 32 &&& r.mask = r.pattern

/-- The row's mask frees the `len` bits from `lo` on, and its exact match lies below them (R83). -/
structure OpcodeRow.Frees (r : OpcodeRow) (lo len : Nat) : Prop where
  le_32 : lo + len ≤ 32
  mask_eq : r.mask.toNat = 2 ^ (lo + len) * (2 ^ (32 - (lo + len)) - 1) + (2 ^ lo - 1)
  pattern_lt : r.pattern.toNat < 2 ^ lo

/-- `CMD[63:32]` is zero when the value has 32 bits. -/
theorem upperHalf_eq_zero_iff (c : Word) : c.extractLsb' 32 32 = 0#32 ↔ c.toNat < 2 ^ 32 := by
  have hc := c.isLt
  rw [← BitVec.toNat_inj, BitVec.extractLsb'_toNat, Nat.shiftRight_eq_div_pow, BitVec.toNat_ofNat]
  omega

/-- A value of 32 bits under the row's mask: its free field is cleared. -/
theorem OpcodeRow.Frees.toNat_and_mask {r : OpcodeRow} {lo len : Nat} (h : r.Frees lo len) {c : Word}
    (hc : c.toNat < 2 ^ 32) : (c.extractLsb' 0 32 &&& r.mask).toNat =
      2 ^ (lo + len) * (c.toNat / 2 ^ (lo + len)) + c.toNat % 2 ^ lo := by
  have hdiv : c.toNat / 2 ^ (lo + len) < 2 ^ (32 - (lo + len)) := by
    rwa [Nat.div_lt_iff_lt_mul (Nat.two_pow_pos _), ← pow_add, Nat.sub_add_cancel h.le_32]
  rw [BitVec.toNat_and, h.mask_eq, BitVec.extractLsb'_toNat, Nat.shiftRight_zero, Nat.mod_eq_of_lt hc,
    and_fieldMask, Nat.mod_eq_of_lt hdiv]

/-- A row is met when the bits below its free field are the exact match and the bits above it are zero. -/
theorem OpcodeRow.Frees.matches_iff {r : OpcodeRow} {lo len : Nat} (h : r.Frees lo len) (c : Word) :
    r.Matches c ↔ c.toNat % 2 ^ lo = r.pattern.toNat ∧ c.toNat / 2 ^ (lo + len) = 0 := by
  rw [Matches, upperHalf_eq_zero_iff, ← BitVec.toNat_inj]
  constructor
  · rintro ⟨hc, hmatch⟩
    rw [h.toNat_and_mask hc] at hmatch
    have hlt : r.pattern.toNat < 2 ^ (lo + len) :=
      h.pattern_lt.trans_le (Nat.pow_le_pow_right (by decide) (Nat.le_add_right lo len))
    have hzero : c.toNat / 2 ^ (lo + len) = 0 := by
      by_contra hne
      have := Nat.le_mul_of_pos_right (2 ^ (lo + len)) (Nat.pos_of_ne_zero hne)
      omega
    rw [hzero, Nat.mul_zero, Nat.zero_add] at hmatch
    exact ⟨hmatch, hzero⟩
  · rintro ⟨hlow, hzero⟩
    have hc : c.toNat < 2 ^ 32 := ((Nat.div_eq_zero_iff_lt (Nat.two_pow_pos _)).mp hzero).trans_le
      (Nat.pow_le_pow_right (by decide) h.le_32)
    exact ⟨hc, by rw [h.toNat_and_mask hc, hzero, hlow, Nat.mul_zero, Nat.zero_add]⟩

/-! ### The rows -/

/-- A row with no free bit: its exact match is the word of its one command, and the opcode is none of those with free fields (R83). -/
structure OpcodeRow.Fixed (r : OpcodeRow) : Prop where
  frees : r.Frees 32 0
  opcode_lt : r.pattern.toNat < 2 ^ 8
  not_rev : r.pattern.toNat ≠ 0x01
  not_calc : r.pattern.toNat ≠ 0x20
  not_calcw : r.pattern.toNat ≠ 0x21
  command (w : BitVec 32) : (r.command w).wellFormed = true ∧ encode (r.command w) = r.pattern.setWidth 64

/-- Every row but those of `REV`, `CALC` and `CALCW` is fixed (R83). -/
theorem opcodeTable_rows {r : OpcodeRow} (hr : r ∈ opcodeTable) :
    r = opcodeTable[0] ∨ r = opcodeTable[9] ∨ r = opcodeTable[10] ∨ r.Fixed := by
  simp only [opcodeTable, List.mem_cons, List.not_mem_nil, or_false] at hr
  rcases hr with hrev | h | h | h | h | h | h | h | h | hcalc | hcalcw | h | h
  · exact .inl hrev
  pick_goal 9
  · exact .inr (.inl hcalc)
  pick_goal 9
  · exact .inr (.inr (.inl hcalcw))
  all_goals
    subst h
    exact .inr (.inr (.inr
      ⟨⟨by decide, by decide, by decide⟩, by decide, by decide, by decide, by decide, fun _ => ⟨rfl, rfl⟩⟩))

/-- `REV` frees `ARG` (R83). -/
theorem revRow_frees : opcodeTable[0].Frees 8 8 := ⟨by decide, by decide, by decide⟩

/-- `CALC` frees `SO` (R83). -/
theorem calcRow_frees : opcodeTable[9].Frees 16 1 := ⟨by decide, by decide, by decide⟩

/-- `CALCW` frees `SO` and `DL` (R83). -/
theorem calcwRow_frees : opcodeTable[10].Frees 16 2 := ⟨by decide, by decide, by decide⟩

/-- A row's exact match reaches no further than the opcode, and its free field begins above the opcode (R81, R83). -/
theorem opcodeTable_frees {r : OpcodeRow} (hr : r ∈ opcodeTable) :
    r.pattern.toNat < 2 ^ 8 ∧ ∃ lo len, 8 ≤ lo ∧ r.Frees lo len := by
  rcases opcodeTable_rows hr with rfl | rfl | rfl | hfix
  · exact ⟨by decide, 8, 8, by decide, revRow_frees⟩
  · exact ⟨by decide, 16, 1, by decide, calcRow_frees⟩
  · exact ⟨by decide, 16, 2, by decide, calcwRow_frees⟩
  · exact ⟨hfix.opcode_lt, 32, 0, by decide, hfix.frees⟩

/-- A value that meets a row has the row's opcode (R86). -/
theorem OpcodeRow.Matches.opcode {r : OpcodeRow} {c : Word} (h : r.Matches c) (hr : r ∈ opcodeTable) :
    c.toNat % 256 = r.pattern.toNat := by
  obtain ⟨hlt, lo, len, hlo, hfree⟩ := opcodeTable_frees hr
  obtain ⟨hlow, -⟩ := (hfree.matches_iff c).mp h
  rw [← Nat.mod_mod_of_dvd c.toNat (Nat.pow_dvd_pow 2 hlo), hlow, Nat.mod_eq_of_lt hlt]

/-- No two rows have one opcode (R82). -/
theorem opcodeRow_pattern {r : OpcodeRow} (hr : r ∈ opcodeTable) : opcodeRow (r.pattern.extractLsb' 0 8) = some r := by
  simp only [opcodeTable, List.mem_cons, List.not_mem_nil, or_false] at hr
  rcases hr with h | h | h | h | h | h | h | h | h | h | h | h | h <;> subst h <;> rfl

/-! ### What the decoder answers -/

/-- `CMD[7:0]`, the byte that the decoder looks up (R86). -/
theorem toNat_opcode (c : Word) : ((c.extractLsb' 0 32).extractLsb' 0 8).toNat = c.toNat % 256 := by
  simp only [BitVec.extractLsb'_toNat, Nat.shiftRight_zero]
  omega

/-- The row of a value with a defined opcode. -/
theorem opcodeRow_of_opcode {r : OpcodeRow} (hr : r ∈ opcodeTable) {c : Word} (hop : c.toNat % 256 = r.pattern.toNat) :
    opcodeRow ((c.extractLsb' 0 32).extractLsb' 0 8) = some r := by
  have hbyte : (c.extractLsb' 0 32).extractLsb' 0 8 = r.pattern.extractLsb' 0 8 := by
    apply BitVec.eq_of_toNat_eq
    rw [toNat_opcode, hop, BitVec.extractLsb'_toNat, Nat.shiftRight_zero,
      Nat.mod_eq_of_lt (opcodeTable_frees hr).1]
  rw [hbyte, opcodeRow_pattern hr]

/-- An opcode of no row is `ILL_OP`, whatever the other bits are (R86). -/
theorem decode_of_undefined {c : Word} (h : ∀ r ∈ opcodeTable, c.toNat % 256 ≠ r.pattern.toNat) :
    decode c = .error .illOp := by
  have hnone : opcodeRow ((c.extractLsb' 0 32).extractLsb' 0 8) = none := by
    refine List.find?_eq_none.mpr fun r hr heq => h r hr ?_
    rw [← toNat_opcode, ← eq_of_beq heq, BitVec.extractLsb'_toNat, Nat.shiftRight_zero,
      Nat.mod_eq_of_lt (opcodeTable_frees hr).1]
  simp only [decode, hnone]

/-- A value that meets a row is the command that the row makes of it (R83). -/
theorem decode_of_matches {r : OpcodeRow} (hr : r ∈ opcodeTable) {c : Word} (h : r.Matches c) :
    decode c = .ok (r.command (c.extractLsb' 0 32)) := by
  have hrow := opcodeRow_of_opcode hr (h.opcode hr)
  obtain ⟨hupper, hlower⟩ := h
  simp only [decode, hrow, hupper, hlower, ne_eq, not_true_eq_false, or_self, if_false]

/-- A value with the opcode of a row that it does not meet is `ILL_FIELD` (R86). -/
theorem decode_of_not_matches {r : OpcodeRow} (hr : r ∈ opcodeTable) {c : Word}
    (hop : c.toNat % 256 = r.pattern.toNat) (h : ¬ r.Matches c) : decode c = .error .illField := by
  have hfield : c.extractLsb' 32 32 ≠ 0#32 ∨ c.extractLsb' 0 32 &&& r.mask ≠ r.pattern := not_and_or.mp h
  simp only [decode, opcodeRow_of_opcode hr hop, if_pos hfield]

/-- The commands that a value can decode to are those of the rows it meets (R83, R86). -/
theorem decode_eq_ok_iff {c : Word} {i : Instr} :
    decode c = .ok i ↔ ∃ r ∈ opcodeTable, r.Matches c ∧ r.command (c.extractLsb' 0 32) = i := by
  constructor
  · intro hd
    by_cases hdef : ∀ r ∈ opcodeTable, c.toNat % 256 ≠ r.pattern.toNat
    · rw [decode_of_undefined hdef] at hd
      cases hd
    push Not at hdef
    obtain ⟨r, hr, hop⟩ := hdef
    by_cases hm : r.Matches c
    · rw [decode_of_matches hr hm] at hd
      exact ⟨r, hr, hm, Except.ok.inj hd⟩
    · rw [decode_of_not_matches hr hop hm] at hd
      cases hd
  · rintro ⟨r, hr, hm, rfl⟩
    exact decode_of_matches hr hm

/-! ### Decoding and encoding -/

/-- The three free fields, read off the whole value written to `CMD` (R81). -/
theorem freeFields_eq (c : Word) : argField (c.extractLsb' 0 32) = c.toNat / 2 ^ 8 % 2 ^ 8 ∧
    (soField (c.extractLsb' 0 32)).toNat = c.toNat / 2 ^ 16 % 2 ∧
    (dlField (c.extractLsb' 0 32)).toNat = c.toNat / 2 ^ 17 % 2 := by
  simp only [argField, soField, dlField, BitVec.getLsbD, Nat.toNat_testBit, BitVec.extractLsb'_toNat,
    Nat.shiftRight_eq_div_pow]
  omega

/-- The word of a row's command is the value it was made of: no bit of the value is dropped (R81, R83). -/
theorem encode_command {r : OpcodeRow} (hr : r ∈ opcodeTable) {c : Word} (h : r.Matches c) :
    (r.command (c.extractLsb' 0 32)).wellFormed = true ∧ encode (r.command (c.extractLsb' 0 32)) = c := by
  obtain ⟨harg, hso, hdl⟩ := freeFields_eq c
  rcases opcodeTable_rows hr with rfl | rfl | rfl | hfix
  · obtain ⟨hlow, hhigh⟩ := (revRow_frees.matches_iff c).mp h
    replace hlow : c.toNat % 2 ^ 8 = 0x01 := hlow
    refine ⟨decide_eq_true (by omega), BitVec.eq_of_toNat_eq ?_⟩
    simp only [opcodeTable, List.getElem_cons_zero, encode, commandWord, harg, BitVec.toNat_ofNat, Bool.toNat_false]
    omega
  · obtain ⟨hlow, hhigh⟩ := (calcRow_frees.matches_iff c).mp h
    replace hlow : c.toNat % 2 ^ 16 = 0x20 := hlow
    refine ⟨rfl, BitVec.eq_of_toNat_eq ?_⟩
    simp only [opcodeTable, List.getElem_cons_zero, List.getElem_cons_succ, encode, commandWord, hso,
      BitVec.toNat_ofNat, Bool.toNat_false]
    omega
  · obtain ⟨hlow, hhigh⟩ := (calcwRow_frees.matches_iff c).mp h
    replace hlow : c.toNat % 2 ^ 16 = 0x21 := hlow
    refine ⟨rfl, BitVec.eq_of_toNat_eq ?_⟩
    simp only [opcodeTable, List.getElem_cons_zero, List.getElem_cons_succ, encode, commandWord, hso, hdl,
      BitVec.toNat_ofNat]
    omega
  · obtain ⟨hlow, hhigh⟩ := (hfix.frees.matches_iff c).mp h
    obtain ⟨hwf, henc⟩ := hfix.command (c.extractLsb' 0 32)
    refine ⟨hwf, henc.trans (BitVec.eq_of_toNat_eq ?_)⟩
    rw [BitVec.toNat_setWidth]
    omega

/-- The word of every well-formed command lies in its row of the opcode table (R80, R83). -/
theorem commandWord_statement (i : Instr) : Laws.CommandWord.Statement i := by
  cases i with
  | rev n => exact Laws.CommandWord.rev n
  | gentabM => exact Laws.CommandWord.gentabM
  | gentabL => exact Laws.CommandWord.gentabL
  | buildTlsb => exact Laws.CommandWord.buildTlsb
  | buildTmsb => exact Laws.CommandWord.buildTmsb
  | buildGmsb => exact Laws.CommandWord.buildGmsb
  | buildGlsb => exact Laws.CommandWord.buildGlsb
  | buildWin => exact Laws.CommandWord.buildWin
  | buildAuto => exact Laws.CommandWord.buildAuto
  | calcBuffer so => exact Laws.CommandWord.calcBuffer so
  | calcWindow so dl => exact Laws.CommandWord.calcWindow so dl
  | clrerr => exact Laws.CommandWord.clrerr
  | srst => exact Laws.CommandWord.srst

/-- A well-formed command's word meets a row that makes the same command of it. -/
theorem exists_row_of_encode {i : Instr} (h : i.wellFormed = true) :
    ∃ r ∈ opcodeTable, r.Matches (encode i) ∧ r.command ((encode i).extractLsb' 0 32) = i := by
  obtain ⟨hlt, r, hr, hmask, hcommand⟩ := commandWord_statement i h
  rw [BitVec.setWidth_eq_extractLsb' (by omega)] at hmask hcommand
  refine ⟨r, hr, ⟨?_, hmask⟩, hcommand⟩
  apply BitVec.eq_of_toNat_eq
  rw [BitVec.extractLsb'_toNat, Nat.shiftRight_eq_div_pow, BitVec.toNat_ofNat]
  omega

/-- Settles O2: the decoder answers the command of a row that the value meets; that command's word is the value, and every command's word meets its row. -/
theorem decodeAndEncodeAgree : Obligations.DecodeAndEncodeAgree := by
  intro c i
  rw [decode_eq_ok_iff]
  constructor
  · rintro ⟨r, hr, hm, rfl⟩
    exact encode_command hr hm
  · rintro ⟨hwf, rfl⟩
    exact exists_row_of_encode hwf

/-- Settles O1, the nineteen words by evaluation. -/
theorem commandWordsOfTheTableDecode : Obligations.CommandWordsOfTheTableDecode := by
  unfold Obligations.CommandWordsOfTheTableDecode
  decide

end Sys2Proof

namespace Sys2Proof.Machine

/-! ### Command words that are refused -/

/-- R86's must-be-zero fields in the words of its prose, for a value with a defined opcode. -/
def HasIllegalField (c : Word) : Prop :=
  c.toNat / 2 ^ 18 ≠ 0 ∨ (c.toNat / 2 ^ 8 % 256 ≠ 0 ∧ c.toNat % 256 ≠ 0x01) ∨
    (c.getLsbD 16 = true ∧ c.toNat % 256 ≠ 0x20 ∧ c.toNat % 256 ≠ 0x21) ∨
    (c.getLsbD 17 = true ∧ c.toNat % 256 ≠ 0x21)

/-- The prose of R86 and the mask of R83 forbid the same values of an opcode. -/
theorem hasIllegalField_iff_not_matches {r : OpcodeRow} (hr : r ∈ opcodeTable) {c : Word}
    (hop : c.toNat % 256 = r.pattern.toNat) : HasIllegalField c ↔ ¬ r.Matches c := by
  simp only [HasIllegalField, BitVec.getLsbD, Nat.testBit_eq_decide_div_mod_eq, decide_eq_true_eq]
  rcases opcodeTable_rows hr with rfl | rfl | rfl | hfix
  · replace hop : c.toNat % 256 = 0x01 := hop
    rw [revRow_frees.matches_iff, show opcodeTable[0].pattern.toNat = 0x01 from rfl]
    omega
  · replace hop : c.toNat % 256 = 0x20 := hop
    rw [calcRow_frees.matches_iff, show opcodeTable[9].pattern.toNat = 0x20 from rfl]
    omega
  · replace hop : c.toNat % 256 = 0x21 := hop
    rw [calcwRow_frees.matches_iff, show opcodeTable[10].pattern.toNat = 0x21 from rfl]
    omega
  · have hrev := hfix.not_rev
    have hcalc := hfix.not_calc
    have hcalcw := hfix.not_calcw
    rw [hfix.frees.matches_iff]
    omega

/-- The thirteen defined opcodes are the exact matches of the rows (R82, R83). -/
theorem mem_opcodes_iff {op : Nat} :
    op ∈ [0x01, 0x02, 0x03, 0x10, 0x11, 0x12, 0x13, 0x14, 0x1F, 0x20, 0x21, 0x30, 0x3F] ↔
      ∃ r ∈ opcodeTable, op = r.pattern.toNat := by
  have hmap : [0x01, 0x02, 0x03, 0x10, 0x11, 0x12, 0x13, 0x14, 0x1F, 0x20, 0x21, 0x30, 0x3F] =
    opcodeTable.map fun r => r.pattern.toNat := rfl
  simp only [hmap, List.mem_map, eq_comm]

/-- A write to `CMD` of a value that is no command is the error's entry (R86, R190). -/
theorem step_of_decode_error {s : State} {c : Word} {rest : List Input} {e : DecodeError}
    (hs : s.script = .write .reg 2 c :: rest) (hd : decode c = .error e) :
    ∃ t, step s = .next t ∧ (s.advance rest).ErrorOnly t (Err.ofDecode e) := by
  refine ⟨(s.advance rest).raiseError (Err.ofDecode e), ?_, rfl⟩
  rw [step_command hs, runCommand, hd]

/-- Settles O3: `c` has the opcode of no row, or of a row that it does not meet, or it meets a row. -/
theorem illegalCommandWordsAreRefusedInOrder : Obligations.IllegalCommandWordsAreRefusedInOrder := by
  intro s c rest hs
  refine ⟨fun hundef => ?_, fun hdef hbad => ?_, fun hdef hgood => ?_⟩
  · exact step_of_decode_error hs (decode_of_undefined fun r hr hop => hundef (mem_opcodes_iff.mpr ⟨r, hr, hop⟩))
  · obtain ⟨r, hr, hop⟩ := mem_opcodes_iff.mp hdef
    exact step_of_decode_error hs (decode_of_not_matches hr hop ((hasIllegalField_iff_not_matches hr hop).mp hbad))
  · obtain ⟨r, hr, hop⟩ := mem_opcodes_iff.mp hdef
    have hd := decode_of_matches hr (not_not.mp fun h => hgood ((hasIllegalField_iff_not_matches hr hop).mpr h))
    exact ⟨_, hd, by rw [step_command hs, runCommand, hd]⟩

end Sys2Proof.Machine
end

section
/-! Proofs of the statements about bit reversal (40_bit_reversal.md R100 to R104): the command `REV`, the laws of the function and its byte-at-a-time realisation. -/

namespace Sys2Proof.Machine

/-! ### What `REV` answers -/

/-- R103's check of `NBITS` passes exactly for the counts from 1 to 64. -/
theorem exec_rev_legal (s : State) {n : Nat} (h1 : 1 ≤ n) (h64 : n ≤ 64) :
    exec (.rev n) s = .next (s.setResult (reverseBits s.opa.toNat n)).complete := by
  rw [exec, execRev]
  apply guarded_pass
  rw [firstFailing_none]
  simp only [List.mem_singleton, forall_eq, Bool.or_eq_false_iff, beq_eq_false_iff_ne, decide_eq_false_iff_not]
  exact ⟨Nat.ne_of_gt h1, h64.not_gt⟩

/-- Every other count is R103's error. -/
theorem exec_rev_illegal (s : State) {n : Nat} (h : n = 0 ∨ 64 < n) :
    exec (.rev n) s = .next (s.raiseError .illNbits) := by
  rw [exec, execRev]
  apply guarded_fail
  have hfailing : (n == 0 || decide (Config.wmax < n)) = true := by
    simp only [Bool.or_eq_true, beq_iff_eq, decide_eq_true_eq]
    exact h
  rw [hfailing]
  rfl

/-- A reversal of at most 64 bits fits `RESULT`: nothing is cut off (R103). -/
theorem toNat_ofNat_reverseBits (v : Nat) {n : Nat} (h : n ≤ 64) :
    (BitVec.ofNat 64 (reverseBits v n)).toNat = reverseBits v n := by
  rw [BitVec.toNat_ofNat, Nat.mod_eq_of_lt]
  exact (reverseBits_lt v n).trans_le (Nat.pow_le_pow_right (by omega) h)

/-- Settles O17: the result fits `RESULT`, and its bits are those of `reverseBits`. -/
theorem revReversesTheLowBits : Obligations.RevReversesTheLowBits := by
  intro s n h1 h64
  refine ⟨_, reverseBits s.opa.toNat n, exec_rev_legal s h1 h64, rfl, reverseBits_lt _ n, fun i _ => ?_, fun _ => rfl⟩
  rw [State.complete_result, State.setResult_result, BitVec.getLsbD, toNat_ofNat_reverseBits _ h64,
    testBit_reverseBits, BitVec.getLsbD]

/-- Settles O18: the only check of `REV` fails. -/
theorem revRefusesIllegalBitCounts : Obligations.RevRefusesIllegalBitCounts := fun s _ h =>
  ⟨_, exec_rev_illegal s h, rfl⟩

/-! ### The laws of the reversal -/

/-- The reversal of `mask(n)` is `mask(n)`: every bit below `n` comes from a bit below `n` (R104). -/
theorem reverseBits_mask (n : Nat) : reverseBits (mask n) n = mask n := by
  apply Nat.eq_of_testBit_eq
  intro i
  rw [testBit_reverseBits, testBit_mask, testBit_mask, ← Bool.decide_and]
  exact decide_eq_decide.mpr (by omega)

/-- The reversal of 1 is the top bit of the field (R104). -/
theorem reverseBits_one {n : Nat} (h : 1 ≤ n) : reverseBits 1 n = 2 ^ (n - 1) := by
  obtain ⟨m, rfl⟩ := Nat.exists_eq_add_of_le' h
  simp [reverseBits]

/-- Only the low `n` bits of the input enter the reversal (R100). -/
theorem reverseBits_and_mask (v n : Nat) : reverseBits (v &&& mask n) n = reverseBits v n := by
  rw [and_mask, ← reverseBits_reverseBits v n, reverseBits_reverseBits, Nat.mod_eq_of_lt (reverseBits_lt v n)]

/-- Settles O19: on the machine, the first `REV` leaves the reversal in `RESULT`, whose reversal the second one finds. -/
theorem reversalIsAnInvolution : Obligations.ReversalIsAnInvolution := by
  intro n h1 h64
  refine ⟨fun x => reverseBits_reverseBits x n, fun a b => reverseBits_xor a b n, reverseBits_mask n,
    reverseBits_one h1, fun s => ⟨_, _, exec_rev_legal s h1 h64, exec_rev_legal _ h1 h64, ?_⟩⟩
  simp only [State.complete_result, State.setResult_result, toNat_ofNat_reverseBits _ h64]
  exact reverseBits_reverseBits _ n

/-! ### The byte-at-a-time realisation -/

/-- The ROM, bit by bit: entry `t[8b + 7 .. 8b]` holds the bits of that byte of the group in reverse order (R102). -/
theorem testBit_brev_byte (t b j : Nat) :
    (brev (BitVec.ofNat 8 (t >>> (8 * b)))).toNat.testBit j = (decide (j < 8) && t.testBit (8 * b + (7 - j))) := by
  rw [brev_toNat, testBit_reverseBits, BitVec.toNat_ofNat, Nat.testBit_mod_two_pow, Nat.testBit_shiftRight]
  have hbelow : 8 - 1 - j < 8 := by omega
  simp [hbelow]

/-- The first `b` bytes, reversed, fill the top `b` bytes of the group, and the rest of it is still 0 (R101). -/
theorem testBit_reverseBytes (t nb i : Nat) {b : Nat} (hb : b ≤ nb) :
    (reverseBytes t nb b).testBit i =
      (decide (8 * (nb - b) ≤ i ∧ i < 8 * nb) && t.testBit (8 * nb - 1 - i)) := by
  induction b with
  | zero =>
    have hempty : ¬ (8 * (nb - 0) ≤ i ∧ i < 8 * nb) := by omega
    simp only [reverseBytes, Nat.zero_testBit, hempty, decide_false, Bool.false_and]
  | succ b ih =>
    rw [reverseBytes, Nat.testBit_or, ih (by omega), Nat.testBit_shiftLeft, testBit_brev_byte]
    by_cases hold : 8 * (nb - b) ≤ i
    · have hnew : ¬ i - 8 * (nb - 1 - b) < 8 := by omega
      have hrange : (8 * (nb - (b + 1)) ≤ i ∧ i < 8 * nb) ↔ (8 * (nb - b) ≤ i ∧ i < 8 * nb) := by omega
      simp only [hnew, hrange, decide_false, Bool.false_and, Bool.and_false, Bool.or_false]
    · by_cases hnew : 8 * (nb - 1 - b) ≤ i
      · have hindex : 8 * b + (7 - (i - 8 * (nb - 1 - b))) = 8 * nb - 1 - i := by omega
        have hbyte : i - 8 * (nb - 1 - b) < 8 := by omega
        have hrange : 8 * (nb - (b + 1)) ≤ i ∧ i < 8 * nb := by omega
        simp [hold, hnew, hindex, hbyte, hrange]
      · have hrange : ¬ 8 * (nb - (b + 1)) ≤ i := by omega
        simp [hold, hnew, hrange]

/-- All bytes of a group, each reversed and put at the mirrored place, are the reversal of the group (R101). -/
theorem reverseBytes_eq_reverseBits (t nb : Nat) : reverseBytes t nb nb = reverseBits t (8 * nb) := by
  apply Nat.eq_of_testBit_eq
  intro i
  rw [testBit_reverseBytes t nb i le_rfl, testBit_reverseBits]
  simp

/-- Settles O20: the byte-wise reversal reverses the group, whose top `n` bits are the field. -/
theorem byteReversalTableRealisesReversal : Obligations.ByteReversalTableRealisesReversal := by
  intro v n _ _
  have hgroup : 8 * ((n + 7) / 8) = n + (8 * ((n + 7) / 8) - n) := by omega
  calc reverseBitsByBytes v n
      = reverseBits ((v &&& mask n) <<< (8 * ((n + 7) / 8) - n)) (8 * ((n + 7) / 8)) :=
        reverseBytes_eq_reverseBits _ _
    _ = reverseBits ((v &&& mask n) <<< (8 * ((n + 7) / 8) - n)) (n + (8 * ((n + 7) / 8) - n)) := by rw [← hgroup]
    _ = reverseBits (v &&& mask n) n := reverseBits_shiftLeft _ _ _
    _ = reverseBits v n := reverseBits_and_mask v n

end Sys2Proof.Machine
end


section
/-! Proofs of the statements about the table generator (41_table_generator.md R110 to R118): the doubling constructions compute the closed form of an entry, which is linear over XOR and fits its width; what the `GENTAB` commands answer; the table that a `BUILD` leaves. -/

namespace Sys2Proof.Machine

/-- Adding below the lowest bit of a shifted value is XOR: no bit is carried. -/
theorem shiftLeft_add_eq_xor (a : Nat) {b n : Nat} (h : b < 2 ^ n) : a <<< n + b = (a <<< n) ^^^ b := by
  apply Nat.eq_of_testBit_eq
  intro i
  rw [Nat.shiftLeft_add_eq_or_of_lt h, Nat.testBit_or, Nat.testBit_xor, Nat.testBit_shiftLeft]
  by_cases hi : n ≤ i
  · simp [testBit_of_lt h hi]
  · simp [hi]

/-! ### Rounds without feedback -/

/-- While no 1 leaves the top of the register, MSB-first rounds only shift (R118). -/
theorem rounds_msb_shift (p : Nat) {rw x n : Nat} (h : x <<< n < 2 ^ rw) : rounds (roundMsb p rw) x n = x <<< n := by
  induction n with
  | zero => rfl
  | succ n ih =>
    rw [Nat.shiftLeft_add, Nat.shiftLeft_eq _ 1, Nat.pow_one] at h
    have hlow : x <<< n < 2 ^ (rw - 1) := by
      cases rw with
      | zero => simp_all
      | succ m => rw [Nat.pow_succ] at h; simp; omega
    rw [rounds, ih (by omega), roundMsb_shift p rw _ hlow, Nat.shiftLeft_add, Nat.mod_eq_of_lt]
    rwa [Nat.shiftLeft_eq _ 1, Nat.pow_one]

/-- With the polynomial 0, MSB-first rounds are a shift in a register of `rw` bits. -/
theorem rounds_msb_zero {rw x : Nat} (h : x < 2 ^ rw) (n : Nat) : rounds (roundMsb 0 rw) x n = x <<< n % 2 ^ rw := by
  induction n with
  | zero => exact (Nat.mod_eq_of_lt h).symm
  | succ n ih =>
    have hround (y : Nat) : roundMsb 0 rw y = y <<< 1 % 2 ^ rw := by simp [roundMsb, and_mask]
    rw [rounds, ih, hround, Nat.shiftLeft_add, Nat.shiftLeft_eq _ 1, Nat.shiftLeft_eq _ 1, Nat.mod_mul_mod]

/-- With the polynomial 0, LSB-first rounds are a right shift. -/
theorem rounds_lsb_zero (x n : Nat) : rounds (roundLsb 0) x n = x >>> n := by
  induction n with
  | zero => rfl
  | succ n ih =>
    have hround (y : Nat) : roundLsb 0 y = y >>> 1 := by simp [roundLsb]
    rw [rounds, ih, hround, Nat.shiftRight_add]

/-! ### The MSB-first construction (R112) -/

/-- The aligned register has room for a byte (R152). -/
theorem eight_le_add_lshiftOf (w : Nat) : 8 ≤ w + lshiftOf w := by
  unfold lshiftOf
  split <;> omega

/-- Moving the polynomial and the register up by `ls` bits commutes with a round (R152). -/
theorem roundMsb_shiftLeft (p x ls : Nat) {w : Nat} (hw : 1 ≤ w) :
    roundMsb (p <<< ls) (w + ls) (x <<< ls) = roundMsb p w x <<< ls := by
  apply Nat.eq_of_testBit_eq
  intro i
  simp only [testBit_roundMsb, Nat.testBit_shiftLeft]
  have htop : w + ls - 1 - ls = w - 1 := by omega
  by_cases hi : ls ≤ i
  · have hprev : (1 ≤ i ∧ ls ≤ i - 1) ↔ 1 ≤ i - ls := by omega
    have hindex : i - 1 - ls = i - ls - 1 := by omega
    have hwidth : i < w + ls ↔ i - ls < w := by omega
    have hls : ls ≤ w + ls - 1 := by omega
    rw [← Bool.and_assoc, ← Bool.decide_and]
    simp only [hprev, hindex, hwidth, htop, hi, hls, decide_true, Bool.true_and]
  · have hprev : ¬ ls ≤ i - 1 := by omega
    simp only [hi, hprev, decide_false, Bool.false_and, Bool.and_false, Bool.xor_false]

theorem rounds_msb_shiftLeft (p x ls n : Nat) {w : Nat} (hw : 1 ≤ w) :
    rounds (roundMsb (p <<< ls) (w + ls)) (x <<< ls) n = rounds (roundMsb p w) x n <<< ls := by
  induction n with
  | zero => rfl
  | succ n ih => rw [rounds, rounds, ih, roundMsb_shiftLeft _ _ _ hw]

theorem directEntryMsb_xor (poly w i j : Nat) :
    directEntryMsb poly w (i ^^^ j) = directEntryMsb poly w i ^^^ directEntryMsb poly w j := by
  simp only [directEntryMsb, Nat.shiftLeft_xor_distrib, rounds_xor _ (roundMsb_xor _ _), Nat.shiftRight_xor_distrib]

/-- The entry of a power of two: `7 - p` rounds move its bit to the top of the register, and `p + 1` rounds follow. -/
theorem directEntryMsb_two_pow (poly : Nat) {w p : Nat} (hw : 1 ≤ w) (hp : p < 8) :
    directEntryMsb poly w (2 ^ p) = rounds (roundMsb poly w) (1 <<< (w - 1)) (p + 1) := by
  have hrw := eight_le_add_lshiftOf w
  have hmoved : 2 ^ p <<< (w + lshiftOf w - 8) <<< (7 - p) = 1 <<< (w - 1) <<< lshiftOf w := by
    rw [← Nat.one_shiftLeft p, ← Nat.shiftLeft_add, ← Nat.shiftLeft_add, ← Nat.shiftLeft_add]
    congr 1; omega
  have htop : 1 <<< (w - 1) <<< lshiftOf w < 2 ^ (w + lshiftOf w) := by
    rw [← Nat.shiftLeft_add, Nat.one_shiftLeft]
    exact Nat.pow_lt_pow_right (by omega) (by omega)
  have hrounds : 8 = (7 - p) + (p + 1) := by omega
  calc directEntryMsb poly w (2 ^ p)
      = rounds (roundMsb (poly <<< lshiftOf w) (w + lshiftOf w)) (2 ^ p <<< (w + lshiftOf w - 8)) ((7 - p) + (p + 1))
          >>> lshiftOf w := by rw [← hrounds, directEntryMsb]
    _ = rounds (roundMsb poly w) (1 <<< (w - 1)) (p + 1) := by
      rw [rounds_add, rounds_msb_shift (n := 7 - p) _ (hmoved ▸ htop), hmoved, rounds_msb_shiftLeft _ _ _ _ hw,
        Nat.shiftLeft_shiftRight]

/-- One pass: `crc` takes a round, and the new entries are the old ones with `crc` added (R112). -/
theorem genMsbPasses_succ (poly w p : Nat) :
    genMsbPasses poly w (p + 1) = (roundMsb poly w (genMsbPasses poly w p).1,
      (genMsbPasses poly w p).2 ++ (genMsbPasses poly w p).2.map (roundMsb poly w (genMsbPasses poly w p).1 ^^^ ·)) := rfl

/-- The running `crc` of the construction, pass by pass. -/
theorem genMsbPasses_crc (poly w p : Nat) :
    (genMsbPasses poly w p).1 = rounds (roundMsb poly w) (1 <<< (w - 1)) p := by
  induction p with
  | zero => rfl
  | succ p ih => rw [genMsbPasses_succ, rounds, ih]

/-- After `p` passes the first `2^p` entries stand: the running `crc` is the entry of `2^p`, and the closed form is linear (R112, R117). -/
theorem genMsbPasses_entries (poly : Nat) {w p : Nat} (hw : 1 ≤ w) (hp : p ≤ 8) :
    (genMsbPasses poly w p).2 = (List.range (2 ^ p)).map (directEntryMsb poly w) := by
  induction p with
  | zero =>
    have hzero : directEntryMsb poly w 0 = 0 := by simpa using directEntryMsb_xor poly w 0 0
    simp [genMsbPasses, hzero]
  | succ p ih =>
    have hcrc : roundMsb poly w (genMsbPasses poly w p).1 = directEntryMsb poly w (2 ^ p) := by
      rw [genMsbPasses_crc, directEntryMsb_two_pow poly hw hp, rounds]
    rw [genMsbPasses_succ, hcrc, ih (by omega), Nat.pow_succ, Nat.mul_two, List.range_add, List.map_append, List.map_map,
      List.map_map]
    refine congrArg (List.map _ _ ++ ·) (List.map_congr_left fun j hj => ?_)
    have hadd : 2 ^ p + j = 2 ^ p ^^^ j := by
      simpa [Nat.one_shiftLeft] using shiftLeft_add_eq_xor 1 (List.mem_range.mp hj)
    exact (hadd ▸ directEntryMsb_xor poly w (2 ^ p) j).symm

/-! ### The LSB-first construction (R113) -/

/-- One pass: `crc` takes a round, and each old entry is followed by itself with `crc` added (R113). -/
theorem genLsbPasses_succ (rpoly p : Nat) :
    genLsbPasses rpoly (p + 1) = (roundLsb rpoly (genLsbPasses rpoly p).1,
      (genLsbPasses rpoly p).2.flatMap fun x => [x, roundLsb rpoly (genLsbPasses rpoly p).1 ^^^ x]) := rfl

/-- The running `crc` of the construction, pass by pass. -/
theorem genLsbPasses_crc (rpoly p : Nat) : (genLsbPasses rpoly p).1 = rounds (roundLsb rpoly) 1 p := by
  induction p with
  | zero => rfl
  | succ p ih => rw [genLsbPasses_succ, rounds, ih]

theorem range_mul_two (n : Nat) : List.range (n * 2) = (List.range n).flatMap fun j => [j <<< 1, j <<< 1 + 1] := by
  induction n with
  | zero => rfl
  | succ n ih =>
    rw [Nat.add_mul, List.range_add, ih, List.range_succ (n := n), List.flatMap_append]
    simp [Nat.shiftLeft_eq, List.range_succ]

/-- After `p` passes the entries stand that `p` rounds give: the first round of an even index only shifts, and an odd index adds the rounds of 1 (R113, R117). -/
theorem genLsbPasses_entries (rpoly p : Nat) :
    (genLsbPasses rpoly p).2 = (List.range (2 ^ p)).map (rounds (roundLsb rpoly) · p) := by
  induction p with
  | zero => rfl
  | succ p ih =>
    have heven (j : Nat) : rounds (roundLsb rpoly) (j <<< 1) (p + 1) = rounds (roundLsb rpoly) j p := by
      rw [rounds_succ', roundLsb_shift]
    have hodd (j : Nat) : rounds (roundLsb rpoly) (j <<< 1 + 1) (p + 1) =
        rounds (roundLsb rpoly) 1 (p + 1) ^^^ rounds (roundLsb rpoly) j p := by
      rw [shiftLeft_add_eq_xor j Nat.one_lt_two, rounds_xor _ (roundLsb_xor _), heven, Nat.xor_comm]
    have hcrc : roundLsb rpoly (genLsbPasses rpoly p).1 = rounds (roundLsb rpoly) 1 (p + 1) := by
      rw [genLsbPasses_crc, rounds]
    rw [genLsbPasses_succ, hcrc, ih, Nat.pow_succ, range_mul_two, List.map_flatMap, List.flatMap_map]
    simp only [List.map_cons, List.map_nil, heven, hodd]

/-! ### The table of a convention -/

/-- A generated table lists the closed form of its entries (R118). -/
theorem genTable_eq_map_directEntry (c : Conv) (poly : Nat) {w : Nat} (hw : 1 ≤ w) :
    genTable c poly w = (List.range 256).map (directEntry c poly w) := by
  cases c with
  | msb => exact genMsbPasses_entries poly hw le_rfl
  | lsb => exact genLsbPasses_entries _ 8

/-- Settles O23: the closed form stands at its index in the table of either convention. -/
theorem tableEntriesAreEightRounds : Obligations.TableEntriesAreEightRounds := by
  intro poly w i hw _ _ hi
  have hentry (c : Conv) : (genTable c poly w)[i]? = some (directEntry c poly w i) := by
    simp [genTable_eq_map_directEntry c poly hw, hi]
  exact ⟨hentry .msb, hentry .lsb⟩

/-- The closed form is linear over XOR (R117). -/
theorem directEntry_xor (c : Conv) (poly w i j : Nat) :
    directEntry c poly w (i ^^^ j) = directEntry c poly w i ^^^ directEntry c poly w j := by
  cases c with
  | msb => exact directEntryMsb_xor poly w i j
  | lsb => exact rounds_xor _ (roundLsb_xor _) i j 8

@[simp] theorem directEntry_zero (c : Conv) (poly w : Nat) : directEntry c poly w 0 = 0 := by
  simpa using directEntry_xor c poly w 0 0

/-- `n` LSB-first rounds bring a value of `w + n` bits down to the polynomial's `w` bits. -/
theorem rounds_lsb_lt {p w : Nat} (hp : p < 2 ^ w) {x n : Nat} (hx : x < 2 ^ (w + n)) :
    rounds (roundLsb p) x n < 2 ^ w := by
  induction n generalizing x with
  | zero => exact hx
  | succ n ih =>
    rw [rounds_succ']
    refine ih (lt_of_testBit fun i hi => ?_)
    rw [testBit_roundLsb, testBit_of_lt hx (by omega), testBit_of_lt hp (by omega)]
    simp

/-- An entry has no bit at or above its width (R42). -/
theorem directEntry_lt (c : Conv) (poly w : Nat) {i : Nat} (hi : i < 256) : directEntry c poly w i < 2 ^ w := by
  cases c with
  | msb =>
    refine lt_of_testBit fun b hb => ?_
    have hregister := roundMsb_lt (poly <<< lshiftOf w) (w + lshiftOf w)
      (rounds (roundMsb (poly <<< lshiftOf w) (w + lshiftOf w)) (i <<< (w + lshiftOf w - 8)) 7)
    rw [directEntry, directEntryMsb, Nat.testBit_shiftRight]
    exact testBit_of_lt hregister (by omega)
  | lsb =>
    have hbyte : i < 2 ^ (w + 8) := hi.trans_le (Nat.pow_le_pow_right (n := 2) (i := 8) (by omega) (by omega))
    exact rounds_lsb_lt (reverseBits_lt poly w) hbyte

/-- The polynomial 0 has an all-zero table: the eight rounds shift the index out of the register (R111). -/
theorem directEntry_poly_zero (c : Conv) (w : Nat) {i : Nat} (hi : i < 256) : directEntry c 0 w i = 0 := by
  cases c with
  | msb =>
    have hrw := eight_le_add_lshiftOf w
    have htop : 8 + (w + lshiftOf w - 8) = w + lshiftOf w := by omega
    have hfits : i <<< (w + lshiftOf w - 8) < 2 ^ (w + lshiftOf w) :=
      (Nat.shiftLeft_lt (n := 8) hi).trans_eq (congrArg (2 ^ ·) htop)
    have hout : i <<< (w + lshiftOf w - 8) <<< 8 % 2 ^ (w + lshiftOf w) = 0 := by
      rw [← Nat.shiftLeft_add, Nat.add_comm, htop, Nat.shiftLeft_eq, Nat.mul_mod_left]
    simp [directEntry, directEntryMsb, rounds_msb_zero hfits, hout]
  | lsb =>
    simp only [directEntry, directEntryLsb, reverseBits_zero, rounds_lsb_zero]
    exact Nat.shiftRight_eq_zero i 8 hi

/-! ### The table of a state -/

section
variable {s : State} {c : Conv} {poly w : Nat}

/-- An entry of a generated table is the closed form, narrowed to the entry's 64 bits. -/
theorem State.tableEntry_generated (htable : s.table = (genTable c poly w).map (BitVec.ofNat 64)) (hw : 1 ≤ w)
    {i : Nat} (hi : i < 256) : s.tableEntry i = BitVec.ofNat 64 (directEntry c poly w i) := by
  simp [State.tableEntry, htable, genTable_eq_map_directEntry c poly hw, hi]

/-- The narrowing loses nothing (R42). -/
theorem State.toNat_tableEntry_generated (htable : s.table = (genTable c poly w).map (BitVec.ofNat 64)) (hw : 1 ≤ w)
    (hw64 : w ≤ 64) {i : Nat} (hi : i < 256) : (s.tableEntry i).toNat = directEntry c poly w i := by
  rw [State.tableEntry_generated htable hw hi, BitVec.toNat_ofNat, Nat.mod_eq_of_lt]
  exact (directEntry_lt c poly w hi).trans_le (Nat.pow_le_pow_right (by omega) hw64)

end

/-- Settles O24: a valid table of a sound state is the generated one that `TCFG` and `TPOLY` describe. -/
theorem validTableIsXorLinear : Obligations.ValidTableIsXorLinear := by
  intro s hinv htv
  obtain ⟨hw, hw64, -, htable⟩ := hinv.table_ok htv
  refine ⟨?_, fun i j hi hj => ?_, fun i hi => ?_⟩
  · rw [State.tableEntry_generated htable hw (by omega), directEntry_zero]
  · rw [State.tableEntry_generated htable hw (Nat.xor_lt_two_pow (n := 8) hi hj), State.tableEntry_generated htable hw hi,
      State.tableEntry_generated htable hw hj, directEntry_xor, BitVec.ofNat_xor]
  · rw [State.toNat_tableEntry_generated htable hw hw64 hi]
    exact directEntry_lt _ _ _ hi

/-! ### What `GENTAB` answers -/

/-- On arguments that pass R111's checks the table is generated and a table-driven engine invalidated (R114, R115, R116). -/
theorem exec_gentab_legal (c : Conv) {s : State} (h : firstFailing (widthPolyChecks s.params) = none) :
    exec c.gentab s = .next (s.generate c).invalidateEngine.complete := by
  rw [exec_gentab, State.gentab, guarded_pass s _ h]

theorem exec_gentab_error (c : Conv) {s : State} {e : Err} (h : firstFailing (widthPolyChecks s.params) = some e) :
    exec c.gentab s = .next (s.raiseError e) := by
  rw [exec_gentab, State.gentab, guarded_fail s _ h]

theorem Kind.usesTable_eq (k : Kind) : k.usesTable = (k == .tlsb || k == .tmsb) := by cases k <;> rfl

/-- Settles O21: on arguments that pass, the generated entries are the closed form, and the updates write nothing else. -/
theorem gentabWritesTheTable : Obligations.GentabWritesTheTable := by
  intro s c hw hw64 hpoly
  refine ⟨_, exec_gentab_legal c (widthPolyChecks_pass.mpr ⟨hw, hw64, hpoly⟩), ?_, ?_,
    fun i hi => State.toNat_tableEntry_generated rfl hw hw64 hi, fun _ => rfl⟩
  · rw [← Kind.usesTable_eq]
    rfl
  · simp [State.generate]

/-! ### The generator's checks in order (R111) -/

section
variable {p : Params}

theorem widthPolyChecks_width_zero (h : p.width.toNat = 0) : firstFailing (widthPolyChecks p) = some .cfgWidthZero := by
  have hzero : p.width = 0#64 := BitVec.eq_of_toNat_eq h
  simp [widthPolyChecks, firstFailing, hzero]

theorem widthPolyChecks_width_big (h : 64 < p.width.toNat) : firstFailing (widthPolyChecks p) = some .cfgWidthBig := by
  have hnonzero : p.width ≠ 0#64 := fun hzero => by simp [hzero] at h
  simp [widthPolyChecks, firstFailing, hnonzero, Config.wmax, h]

theorem widthPolyChecks_poly_wide (hw : 1 ≤ p.width.toNat) (hw64 : p.width.toNat ≤ 64)
    (h : 2 ^ p.width.toNat ≤ p.poly.toNat) : firstFailing (widthPolyChecks p) = some .cfgPolyWide := by
  have hnonzero : p.width ≠ 0#64 := fun hzero => by simp [hzero] at hw
  have hwide : fits p.poly.toNat p.width.toNat = false := Bool.eq_false_iff.mpr fun hfits => h.not_gt ((fits_iff _ _).mp hfits)
  simp [widthPolyChecks, firstFailing, hnonzero, Config.wmax, hw64.not_gt, hwide]

end

/-- Settles O22: each failing check is the first failing one, and arguments that pass generate, for `POLY = 0` a table of zeros. -/
theorem gentabChecksItsArgumentsInOrder : Obligations.GentabChecksItsArgumentsInOrder := by
  intro s c
  refine ⟨fun hw => ⟨_, exec_gentab_error c (widthPolyChecks_width_zero hw), rfl⟩,
    fun hw => ⟨_, exec_gentab_error c (widthPolyChecks_width_big hw), rfl⟩,
    fun hw hw64 hpoly => ⟨_, exec_gentab_error c (widthPolyChecks_poly_wide hw hw64 hpoly), rfl⟩,
    fun hw hw64 hpoly => ⟨_, exec_gentab_legal c (widthPolyChecks_pass.mpr ⟨hw, hw64, hpoly⟩), rfl, fun hzero i hi => ?_⟩⟩
  apply BitVec.eq_of_toNat_eq
  rw [State.toNat_tableEntry_generated rfl hw hw64 hi, hzero]
  exact directEntry_poly_zero c _ hi

/-! ### The table of a `BUILD` -/

/-- A `BUILD` that completes has constructed its kind from a legal Parameter Set (R121, R122, R123). -/
theorem exec_build_done {k : Kind} {s t : State} (h : exec k.build s = .next t) (hdone : t.status.done = true) :
    s.params.Legal ∧ t = s.construct k := by
  rw [exec_build, State.build] at h
  rcases guarded_next h with ⟨e, -, rfl⟩ | ⟨hc, hg⟩
  · simp at hdone
  · cases hg
    rw [firstFailing_none, List.forall_mem_append] at hc
    exact ⟨commonChecks_pass.mp (firstFailing_none.mpr hc.1), rfl⟩

/-- The construction of a table kind generates the table of the kind's convention (R123, R140). -/
theorem State.construct_table {k : Kind} (hk : k.usesTable = true) (s : State) :
    (s.construct k).table = (s.generate k.conv).table ∧ (s.construct k).tableInfo = (s.generate k.conv).tableInfo := by
  cases k with
  | tlsb | tmsb => simp [State.construct, State.buildTable, State.generate, Kind.conv]
  | gmsb | glsb | win => cases hk

/-- The table that a completed `BUILD` of a table kind leaves is the one that `GENTAB` of its convention leaves (R223). -/
theorem exec_build_table {k : Kind} (hk : k.usesTable = true) {s t u : State} (hbuild : exec k.build s = .next t)
    (hdone : t.status.done = true) (hgentab : exec k.conv.gentab s = .next u) :
    u.status.done = true ∧ t.table = u.table ∧ t.tableInfo = u.tableInfo := by
  obtain ⟨hlegal, rfl⟩ := exec_build_done hbuild hdone
  rw [exec_gentab_legal _ (widthPolyChecks_pass.mpr ⟨hlegal.width_pos, hlegal.width_le, hlegal.poly_lt⟩)] at hgentab
  cases hgentab
  exact ⟨rfl, State.construct_table hk s⟩

/-- Settles O30: each clause is one of the two table kinds. -/
theorem builtTableIsTheGeneratedTable : Obligations.BuiltTableIsTheGeneratedTable := fun _ _ _ =>
  ⟨exec_build_table (k := .tlsb) rfl, exec_build_table (k := .tmsb) rfl⟩

end Sys2Proof.Machine
end

section
/-! Proofs of the statements about engine construction (42_engine_build_and_dispatch.md R121 to R129): the checks of a `BUILD` in order, and what a `BUILD` that passes them latches and generates. -/

namespace Sys2Proof.Machine

/-! ### The common checks in order (R121) -/

section
variable {p : Params}

/-- A value that is too wide fails its width test. -/
theorem fits_eq_false {v w : Nat} (h : 2 ^ w ≤ v) : fits v w = false :=
  Bool.eq_false_iff.mpr fun hfits => h.not_gt ((fits_iff v w).mp hfits)

/-- A failing check of the generator's arguments is the first failing common check. -/
theorem commonChecks_of_widthPolyChecks {e : Err} (h : firstFailing (widthPolyChecks p) = some e) :
    firstFailing (commonChecks p) = some e := by
  rw [commonChecks, firstFailing_append, h]
  rfl

/-- On arguments of the generator that pass, the checks of `SEED` and `XOROUT` follow. -/
theorem commonChecks_of_widthPolyChecks_pass (h : firstFailing (widthPolyChecks p) = none) :
    firstFailing (commonChecks p) = firstFailing [(!fits p.seed.toNat p.width.toNat, .cfgSeedWide),
      (!fits p.xorout.toNat p.width.toNat, .cfgXoroutWide)] := by
  rw [commonChecks, firstFailing_append, h]
  rfl

theorem commonChecks_seed_wide (hpass : firstFailing (widthPolyChecks p) = none)
    (h : 2 ^ p.width.toNat ≤ p.seed.toNat) : firstFailing (commonChecks p) = some .cfgSeedWide := by
  simp [commonChecks_of_widthPolyChecks_pass hpass, firstFailing, fits_eq_false h]

theorem commonChecks_xorout_wide (hpass : firstFailing (widthPolyChecks p) = none)
    (hseed : p.seed.toNat < 2 ^ p.width.toNat) (h : 2 ^ p.width.toNat ≤ p.xorout.toNat) :
    firstFailing (commonChecks p) = some .cfgXoroutWide := by
  simp [commonChecks_of_widthPolyChecks_pass hpass, firstFailing, (fits_iff _ _).mpr hseed, fits_eq_false h]

end

/-! ### What a `BUILD` answers -/

/-- A `BUILD` command is the selecting factory or the construction of a kind by name (R82). -/
theorem isBuild_cases {i : Instr} (h : i.isBuild = true) : i = .buildAuto ∨ ∃ k : Kind, i = k.build := by
  cases i with
  | buildAuto => exact .inl rfl
  | buildTlsb => exact .inr ⟨.tlsb, rfl⟩
  | buildTmsb => exact .inr ⟨.tmsb, rfl⟩
  | buildGmsb => exact .inr ⟨.gmsb, rfl⟩
  | buildGlsb => exact .inr ⟨.glsb, rfl⟩
  | buildWin => exact .inr ⟨.win, rfl⟩
  | rev | gentabM | gentabL | calcBuffer | calcWindow | clrerr | srst => cases h

/-- The first failing common check ends every `BUILD`, whatever the kind's own checks say (R121). -/
theorem exec_build_commonError {i : Instr} (hi : i.isBuild = true) {s : State} {e : Err}
    (h : firstFailing (commonChecks s.params) = some e) : exec i s = .next (s.raiseError e) := by
  rcases isBuild_cases hi with rfl | ⟨k, rfl⟩
  · rw [exec, execBuildAuto, guarded_fail s _ h]
  · rw [exec_build, State.build]
    apply guarded_fail
    rw [firstFailing_append, h]
    rfl

/-- Settles O25: each clause makes its check the first failing one. -/
theorem buildChecksTheParameterSetInOrder : Obligations.BuildChecksTheParameterSetInOrder := by
  intro s i hi w
  have hfail {e : Err} (h : firstFailing (commonChecks s.params) = some e) :
      ∃ t, exec i s = .next t ∧ s.ErrorOnly t e := ⟨_, exec_build_commonError hi h, rfl⟩
  refine ⟨fun hw => hfail (commonChecks_of_widthPolyChecks (widthPolyChecks_width_zero hw)),
    fun hw => hfail (commonChecks_of_widthPolyChecks (widthPolyChecks_width_big hw)),
    fun hw hw64 hpoly => hfail (commonChecks_of_widthPolyChecks (widthPolyChecks_poly_wide hw hw64 hpoly)),
    fun hw hw64 hpoly hseed => hfail ?_, fun hw hw64 hpoly hseed hxorout => hfail ?_⟩
  · exact commonChecks_seed_wide (widthPolyChecks_pass.mpr ⟨hw, hw64, hpoly⟩) hseed
  · exact commonChecks_xorout_wide (widthPolyChecks_pass.mpr ⟨hw, hw64, hpoly⟩) hseed hxorout

section
variable {s : State} (hlegal : s.params.Legal)
include hlegal

/-- A legal Parameter Set leaves the decision to the kind's own checks (R122). -/
theorem firstFailing_buildChecks (k : Kind) : firstFailing (commonChecks s.params ++ kindChecks k s.params) =
    firstFailing (kindChecks k s.params) := by
  rw [firstFailing_append, commonChecks_pass.mpr hlegal]
  rfl

theorem exec_build_kindError {k : Kind} {e : Err} (h : firstFailing (kindChecks k s.params) = some e) :
    exec k.build s = .next (s.raiseError e) := by
  rw [exec_build, State.build, guarded_fail s _ ((firstFailing_buildChecks hlegal k).trans h)]

theorem exec_build_legal {k : Kind} (h : firstFailing (kindChecks k s.params) = none) :
    exec k.build s = .next (s.construct k) := by
  rw [exec_build, State.build, guarded_pass s _ ((firstFailing_buildChecks hlegal k).trans h)]

theorem exec_buildAuto_legal : exec .buildAuto s = .next (s.construct (autoKind s.params)) := by
  rw [exec, execBuildAuto, guarded_pass s _ (commonChecks_pass.mpr hlegal)]

end

/-! ### The kinds' own checks (R122) -/

theorem kindChecks_tlsb_pass {p : Params} (h : p.refin = true) : firstFailing (kindChecks .tlsb p) = none := by
  simp [kindChecks, firstFailing, h]

theorem kindChecks_tmsb_pass {p : Params} (h : p.refin = false) (hw : 8 ≤ p.width.toNat) :
    firstFailing (kindChecks .tmsb p) = none := by
  simp [kindChecks, firstFailing, h, hw]

/-- The bit-by-bit kinds have no checks of their own (R126, R127, R128). -/
theorem kindChecks_bitByBit_pass {k : Kind} (hk : k.usesTable = false) (p : Params) :
    firstFailing (kindChecks k p) = none := by
  cases k with
  | tlsb | tmsb => cases hk
  | gmsb | glsb | win => rfl

/-! ### What a construction writes (R123) -/

@[simp] theorem State.construct_engine (k : Kind) (s : State) : (s.construct k).engine = s.params.latch k := by
  cases k <;> rfl

/-- A construction leaves `DATA` alone. -/
theorem State.dataByte_construct (k : Kind) (s : State) (a : Nat) : (s.construct k).dataByte a = s.dataByte a := by
  simp [State.dataByte]

/-- Settles O26: a failing check of the kind is the error, and a kind whose checks pass is constructed. -/
theorem tableKindsCheckTheirConvention : Obligations.TableKindsCheckTheirConvention := by
  intro s hlegal
  have hfail {k : Kind} {e : Err} (h : firstFailing (kindChecks k s.params) = some e) :
      ∃ t, exec k.build s = .next t ∧ s.ErrorOnly t e := ⟨_, exec_build_kindError hlegal h, rfl⟩
  have hbuilt {k : Kind} (h : firstFailing (kindChecks k s.params) = none) :
      ∃ t, exec k.build s = .next t ∧ t.status.done = true ∧ t.engine.kind = k :=
    ⟨_, exec_build_legal hlegal h, by simp, by simp [Params.latch]⟩
  refine ⟨fun hrefin => hfail (k := .tlsb) ?_, fun hrefin => hfail (k := .tmsb) ?_,
    fun hrefin hw => hfail (k := .tmsb) ?_, fun hrefin => hbuilt (kindChecks_tlsb_pass hrefin),
    fun hrefin hw => hbuilt (kindChecks_tmsb_pass hrefin hw), fun k hk => hbuilt (kindChecks_bitByBit_pass ?_ _)⟩
  · simp [kindChecks, firstFailing, hrefin]
  · simp [kindChecks, firstFailing, hrefin]
  · simp [kindChecks, firstFailing, hrefin, hw]
  · rcases hk with rfl | rfl | rfl <;> rfl

section
variable {p : Params} {k : Kind} (hlegal : p.Legal)
include hlegal

/-- The width of a legal Parameter Set fits `ECFG.WIDTH` (R41). -/
theorem Params.Legal.toNat_latch_width : (p.latch k).width.toNat = p.width.toNat := by
  have hle := hlegal.width_le
  unfold Config.wmax at hle
  exact (BitVec.toNat_setWidth ..).trans (Nat.mod_eq_of_lt (by omega))

/-- `EMASK` and `ECFG.LSHIFT` as R123 gives them. -/
theorem Params.Legal.latch_derived (hk : firstFailing (kindChecks k p) = none) :
    (p.latch k).emask.toNat = 2 ^ p.width.toNat - 1 ∧
      (p.latch k).lshift.toNat = (if p.width.toNat < 8 then 8 - p.width.toNat else 0) := by
  have hbuilt := Params.latch_wellBuilt hlegal hk
  rw [hbuilt.emask_eq, hbuilt.lshift_eq, hlegal.toNat_latch_width]
  exact ⟨rfl, rfl⟩

end

/-- Settles O27: a kind without a table writes the latched registers only. -/
theorem bitByBitBuildsLatchTheParameterSet : Obligations.BitByBitBuildsLatchTheParameterSet := by
  intro s k hlegal hk
  have hpass := kindChecks_bitByBit_pass hk s.params
  obtain ⟨hemask, hlshift⟩ := hlegal.latch_derived hpass
  refine ⟨_, exec_build_legal hlegal hpass, ?_, ?_⟩
  · cases k with
    | tlsb | tmsb => cases hk
    | gmsb | glsb | win => rfl
  · rw [State.construct_engine]
    exact ⟨rfl, rfl, rfl, hemask, hlegal.toNat_latch_width, rfl, rfl, rfl, rfl, hlshift, State.dataByte_construct k s⟩

/-- A table kind latches the engine and generates the table of its convention (R124, R125). -/
theorem State.construct_of_usesTable {k : Kind} (hk : k.usesTable = true) (s : State) :
    s.construct k = ((s.latchEngine k).generate k.conv).complete := by
  cases k with
  | tlsb | tmsb => rfl
  | gmsb | glsb | win => cases hk

/-- Settles O28: a table kind whose checks pass writes the latched registers and the generated table of its convention. -/
theorem tableBuildsLatchAndGenerate : Obligations.TableBuildsLatchAndGenerate := by
  intro s k hlegal hk
  have hpass : firstFailing (kindChecks k s.params) = none := by
    rcases hk with ⟨rfl, hrefin⟩ | ⟨rfl, hrefin, hw⟩
    · exact kindChecks_tlsb_pass hrefin
    · exact kindChecks_tmsb_pass hrefin hw
  have htab : k.usesTable = true := by rcases hk with ⟨rfl, -⟩ | ⟨rfl, -⟩ <;> rfl
  have hconv : k.conv = if k = .tlsb then .lsb else .msb := by rcases hk with ⟨rfl, -⟩ | ⟨rfl, -⟩ <;> rfl
  obtain ⟨hemask, hlshift⟩ := hlegal.latch_derived hpass
  have hexec := exec_build_legal hlegal hpass
  rw [State.construct_of_usesTable htab] at hexec
  rw [← hconv]
  refine ⟨_, hexec, rfl, rfl, rfl, rfl, hemask,
    hlegal.toNat_latch_width, rfl, rfl, rfl, rfl, hlshift, by simp [State.generate],
    fun i hi => State.toNat_tableEntry_generated rfl hlegal.width_pos hlegal.width_le hi, fun _ => rfl⟩

/-- The kind that `BUILD.AUTO` chooses, in R129's words. -/
theorem autoKind_eq (p : Params) : autoKind p =
    if p.refin = true ∧ p.refout = true then .tlsb
    else if p.refin = false ∧ p.refout = false ∧ 8 ≤ p.width.toNat then .tmsb
    else .gmsb := by
  unfold autoKind
  cases p.refin <;> cases p.refout <;> simp

/-- Settles O29: the chosen kind passes its own checks, so its explicit `BUILD` constructs it too. -/
theorem autoBuildSelectsTheKind : Obligations.AutoBuildSelectsTheKind := by
  intro s hlegal p k
  have hk : autoKind s.params = k := autoKind_eq s.params
  have hpass := kindChecks_autoKind s.params
  rw [hk] at hpass
  refine ⟨s.construct k, hk ▸ exec_buildAuto_legal hlegal, exec_build_legal hlegal hpass, by simp, by simp, ?_, by simp,
    State.dataByte_construct k s⟩
  rw [State.construct_engine]
  rfl

end Sys2Proof.Machine
end

section
/-! The bit-serial form of the generic engines (44_generic_engines.md R151 to R157, 45_windowed_engine.md R170): a byte that enters the working register is its bits, most significant first, entering one by one. Every whole-buffer engine is then the bit-serial CRC of the same bits. -/

namespace Sys2Proof.Machine

/-! ### The bits of a byte -/

/-- The bits of a byte, most significant first (R66). -/
def byteBits (v : Byte) : List Bool := (List.range 8).map fun j => v.getLsbD (7 - j)

@[simp] theorem byteBits_length (v : Byte) : (byteBits v).length = 8 := by simp [byteBits]

@[simp] theorem byteBits_getElem (v : Byte) {j : Nat} (hj : j < (byteBits v).length) :
    (byteBits v)[j] = v.getLsbD (7 - j) := by simp [byteBits]

theorem byteBits_take_succ (v : Byte) {n : Nat} (hn : n < 8) :
    (byteBits v).take (n + 1) = (byteBits v).take n ++ [v.getLsbD (7 - n)] := by
  rw [List.take_succ_eq_append_getElem (by simpa using hn), byteBits_getElem]

/-! ### One round and one bit -/

/-- A round shifts, and then XORs the polynomial if the top bit was 1 (R153). -/
theorem roundMsb_eq {poly rw : Nat} (hpoly : poly < 2 ^ rw) (x : Nat) :
    roundMsb poly rw x = x <<< 1 % 2 ^ rw ^^^ (if x.testBit (rw - 1) then poly else 0) := by
  have hfits : (if x.testBit (rw - 1) then poly else 0) < 2 ^ rw := by
    split
    · exact hpoly
    · exact Nat.two_pow_pos rw
  rw [roundMsb, and_mask, Nat.xor_mod_two_pow, Nat.mod_eq_of_lt hfits]

/-- A bit-serial step is a round and the polynomial once more if the bit is 1 (R170). -/
theorem bitCrcStep_eq {poly w : Nat} (hpoly : poly < 2 ^ w) (r : Nat) (b : Bool) :
    bitCrcStep poly w r b = roundMsb poly w r ^^^ (if b then poly else 0) := by
  rw [bitCrcStep, roundMsb_eq hpoly, and_mask]
  cases r.testBit (w - 1) <;> cases b <;> simp

/-- Moving the polynomial and the register up by `ls` bits commutes with a bit-serial step (R152). -/
theorem bitCrcStep_shiftLeft {poly w : Nat} (hpoly : poly < 2 ^ w) (hw : 1 ≤ w) (r ls : Nat) (b : Bool) :
    bitCrcStep (poly <<< ls) (w + ls) (r <<< ls) b = bitCrcStep poly w r b <<< ls := by
  rw [bitCrcStep_eq hpoly, bitCrcStep_eq (Nat.shiftLeft_lt hpoly), roundMsb_shiftLeft _ _ _ hw,
    Nat.shiftLeft_xor_distrib]
  cases b <;> simp

theorem bitCrc_shiftLeft {poly w : Nat} (hpoly : poly < 2 ^ w) (hw : 1 ≤ w) (r ls : Nat) (bits : List Bool) :
    bitCrc (poly <<< ls) (w + ls) (r <<< ls) bits = bitCrc poly w r bits <<< ls := by
  induction bits generalizing r with
  | nil => rfl
  | cons b bits ih =>
    simp only [bitCrc, List.foldl_cons] at ih ⊢
    rw [bitCrcStep_shiftLeft hpoly hw, ih]

/-- The bit-serial register keeps within its width (R170). -/
theorem bitCrc_lt {poly w r : Nat} (hpoly : poly < 2 ^ w) (hr : r < 2 ^ w) (bits : List Bool) :
    bitCrc poly w r bits < 2 ^ w := by
  induction bits generalizing r with
  | nil => exact hr
  | cons b bits ih =>
    refine ih (Nat.xor_lt_two_pow ?_ ?_)
    · rw [and_mask]
      exact Nat.mod_lt _ (Nat.two_pow_pos w)
    · split
      · exact hpoly
      · exact Nat.two_pow_pos w

/-- A round on a byte at the top of the register (R151). -/
theorem roundMsb_top_byte {poly rw : Nat} (hpoly : poly < 2 ^ rw) (hrw : 8 ≤ rw) (v : Byte) :
    roundMsb poly rw (v.toNat <<< (rw - 8)) =
      (if v.getLsbD 7 then poly else 0) ^^^ (v <<< 1).toNat <<< (rw - 8) := by
  have htop : (v.toNat <<< (rw - 8)).testBit (rw - 1) = v.getLsbD 7 := by
    have hle : rw - 8 ≤ rw - 1 := by omega
    have hindex : rw - 1 - (rw - 8) = 7 := by omega
    simp [Nat.testBit_shiftLeft, hle, hindex, BitVec.testBit_toNat]
  have hmoved : v.toNat <<< (rw - 8) <<< 1 % 2 ^ rw = (v <<< 1).toNat <<< (rw - 8) := by
    have hpow : 2 ^ rw = 2 ^ 8 * 2 ^ (rw - 8) := by rw [← Nat.pow_add]; congr 1; omega
    rw [← Nat.shiftLeft_add, Nat.add_comm, Nat.shiftLeft_add, BitVec.toNat_shiftLeft, Nat.shiftLeft_eq _ (rw - 8),
      Nat.shiftLeft_eq _ (rw - 8), hpow, Nat.mul_mod_mul_right]
  rw [roundMsb_eq hpoly, htop, hmoved, Nat.xor_comm]

/-- A round on a register with a byte at its top takes in the byte's top bit and moves the rest of the byte up (R151, R170). -/
theorem roundMsb_byte {poly rw : Nat} (hpoly : poly < 2 ^ rw) (hrw : 8 ≤ rw) (x : Nat) (v : Byte) :
    roundMsb poly rw (x ^^^ v.toNat <<< (rw - 8)) =
      bitCrcStep poly rw x (v.getLsbD 7) ^^^ (v <<< 1).toNat <<< (rw - 8) := by
  rw [roundMsb_xor, roundMsb_top_byte hpoly hrw, bitCrcStep_eq hpoly, Nat.xor_assoc]

/-- `n` rounds on a register with a byte at its top: the byte's first `n` bits have entered, and its other bits stand at the top (R165, R170). -/
theorem rounds_msb_byte {poly rw : Nat} (hpoly : poly < 2 ^ rw) (hrw : 8 ≤ rw) (x : Nat) (v : Byte) {n : Nat} (hn : n ≤ 8) :
    rounds (roundMsb poly rw) (x ^^^ v.toNat <<< (rw - 8)) n =
      bitCrc poly rw x ((byteBits v).take n) ^^^ (v <<< n).toNat <<< (rw - 8) := by
  induction n with
  | zero => simp [rounds]
  | succ n ih =>
    have htop : (v <<< n).getLsbD 7 = v.getLsbD (7 - n) := by
      have hbelow : ¬ 7 < n := by omega
      rw [BitVec.getLsbD_shiftLeft]
      simp only [hbelow, decide_false, Bool.not_false]
      rfl
    rw [rounds, ih (by omega), roundMsb_byte hpoly hrw, htop, ← BitVec.shiftLeft_add, byteBits_take_succ v hn,
      bitCrc_append]
    rfl

/-! ### A byte enters an engine -/

theorem Engine.WellBuilt.polyS_lt {e : Engine} (he : e.WellBuilt) : e.polyS < 2 ^ e.workWidth :=
  Nat.shiftLeft_lt he.epoly_lt

section
variable {e : Engine} (he : e.WellBuilt)
include he

/-- The first `n` bits of a byte enter the aligned register one by one, and its other bits stand at the top (R165). -/
theorem absorbMsb_aligned (v : Byte) (r : Nat) {n : Nat} (hn : n ≤ 8) :
    absorbMsb e n v (r <<< e.lshift.toNat) =
      bitCrc e.epoly.toNat e.width.toNat r ((byteBits v).take n) <<< e.lshift.toNat ^^^
        (v <<< n).toNat <<< (e.workWidth - 8) := by
  rw [absorbMsb, rounds_msb_byte he.polyS_lt he.eight_le_workWidth _ _ hn, Engine.polyS, Engine.workWidth,
    bitCrc_shiftLeft he.epoly_lt he.width_pos]

/-- All eight bits of a byte enter the aligned register one by one (R151, R170). -/
theorem absorbMsb_byte (v : Byte) (r : Nat) :
    absorbMsb e 8 v (r <<< e.lshift.toNat) =
      bitCrc e.epoly.toNat e.width.toNat r (byteBits v) <<< e.lshift.toNat := by
  have hall : (byteBits v).take 8 = byteBits v := List.take_of_length_le (by simp)
  have hout : v <<< 8 = 0#8 := BitVec.shiftLeft_eq_zero le_rfl
  simp [absorbMsb_aligned he v r le_rfl, hall, hout]

/-- A loop over whole bytes is the bit-serial CRC of their bits (R151, R170). -/
theorem forLoop_absorbMsb (f : Nat → Byte) (r n : Nat) :
    forLoop (fun k => absorbMsb e 8 (f k)) (r <<< e.lshift.toNat) n =
      bitCrc e.epoly.toNat e.width.toNat r ((List.range n).flatMap fun k => byteBits (f k)) <<< e.lshift.toNat := by
  induction n with
  | zero => rfl
  | succ n ih => simp [forLoop, ih, absorbMsb_byte he, List.range_succ, bitCrc_append]

/-- A byte enters the mirrored register of the LSB-first engine as it enters the MSB-first one (R156). -/
theorem absorbLsb_reverseBits (v : Byte) (r : Nat) :
    absorbLsb e v (reverseBits r e.width.toNat) =
      reverseBits (bitCrc e.epoly.toNat e.width.toNat r (byteBits (e.reflectIn v))) e.width.toNat := by
  have hbyte : (if e.refin then v else brev v) = brev (e.reflectIn v) := by
    cases h : e.refin <;> simp [Engine.reflectIn, h, brev_brev]
  have hmirror : (brev (e.reflectIn v)).toNat =
      reverseBits ((e.reflectIn v).toNat <<< (e.workWidth - 8)) e.workWidth := by
    have hrw : e.workWidth = 8 + (e.workWidth - 8) := by have := he.eight_le_workWidth; omega
    calc (brev (e.reflectIn v)).toNat = reverseBits (e.reflectIn v).toNat 8 := brev_toNat _
      _ = reverseBits ((e.reflectIn v).toNat <<< (e.workWidth - 8)) (8 + (e.workWidth - 8)) :=
        (reverseBits_shiftLeft _ _ _).symm
      _ = _ := by rw [← hrw]
  have hregister : reverseBits r e.width.toNat = reverseBits (r <<< e.lshift.toNat) e.workWidth :=
    (reverseBits_shiftLeft _ _ _).symm
  have hpoly : reverseBits e.epoly.toNat e.width.toNat = reverseBits e.polyS e.workWidth :=
    (reverseBits_shiftLeft _ _ _).symm
  rw [absorbLsb, hbyte, hmirror, hregister, hpoly, ← reverseBits_xor, ← reverseBits_rounds, ← absorbMsb,
    absorbMsb_byte he, Engine.workWidth, reverseBits_shiftLeft]

end

/-! ### The whole-buffer engines -/

/-- The bits of the bytes `data[0 .. n-1]` in the order in which they enter, each byte reflected if `REFIN = 1` (R151, R155). -/
def Engine.inputBits (e : Engine) (rd : Nat → Byte) (n : Nat) : List Bool :=
  (List.range n).flatMap fun k => byteBits (e.reflectIn (rd k))

theorem Engine.inputBits_add (e : Engine) (rd : Nat → Byte) (n m : Nat) :
    e.inputBits rd (n + m) = e.inputBits rd n ++ e.inputBits (fun k => rd (n + k)) m := by
  simp [Engine.inputBits, List.range_add, List.flatMap_map]

/-- The LSB-first generic engine's final steps on the mirrored register (R154, R156). -/
theorem finishLsb_reverseBits {e : Engine} {x : Nat} (hx : x < 2 ^ e.width.toNat) :
    finishLsb e (reverseBits x e.width.toNat) = finishMsb e x := by
  rw [finishLsb, finishMsb, reverseBits_reverseBits, Nat.mod_eq_of_lt hx]

/-- A finalised register of a well-built engine fits its width (R37). -/
theorem finishMsb_lt {e : Engine} (he : e.WellBuilt) {x : Nat} (hx : x < 2 ^ e.width.toNat) :
    finishMsb e x < 2 ^ e.width.toNat := by
  refine Nat.xor_lt_two_pow ?_ he.exorout_lt
  split
  · exact reverseBits_lt _ _
  · exact hx

section
variable {e : Engine} (he : e.WellBuilt)
include he

/-- The MSB-first generic engine is the bit-serial CRC of its input bits (R151, R170). -/
theorem calcGmsb_eq_bitCrc (rd : Nat → Byte) (n seed0 : Nat) :
    calcGmsb e rd n seed0 = finishMsb e (bitCrc e.epoly.toNat e.width.toNat seed0 (e.inputBits rd n)) := by
  rw [calcGmsb, forLoop_absorbMsb he, Nat.shiftLeft_shiftRight, Engine.inputBits]

theorem calcGmsb_lt (rd : Nat → Byte) (n : Nat) {seed0 : Nat} (hseed : seed0 < 2 ^ e.width.toNat) :
    calcGmsb e rd n seed0 < 2 ^ e.width.toNat := by
  rw [calcGmsb_eq_bitCrc he]
  exact finishMsb_lt he (bitCrc_lt he.epoly_lt hseed _)

/-- The register of the LSB-first generic engine mirrors that of the bit-serial CRC (R156). -/
theorem forLoop_absorbLsb (rd : Nat → Byte) (r n : Nat) :
    forLoop (fun k => absorbLsb e (rd k)) (reverseBits r e.width.toNat) n =
      reverseBits (bitCrc e.epoly.toNat e.width.toNat r (e.inputBits rd n)) e.width.toNat := by
  induction n with
  | zero => rfl
  | succ n ih =>
    rw [forLoop, ih, absorbLsb_reverseBits he, Engine.inputBits_add, bitCrc_append]
    simp [Engine.inputBits]

/-- The two generic engines have the same bit-serial form (R156). -/
theorem calcGlsb_eq_calcGmsb (rd : Nat → Byte) (n : Nat) {seed0 : Nat} (hseed : seed0 < 2 ^ e.width.toNat) :
    calcGlsb e rd n seed0 = calcGmsb e rd n seed0 := by
  rw [calcGlsb, forLoop_absorbLsb he, finishLsb_reverseBits (bitCrc_lt he.epoly_lt hseed _), calcGmsb_eq_bitCrc he]

end

/-- Settles O31. -/
theorem genericEnginesAgree : Obligations.GenericEnginesAgree :=
  fun _ rd n _ he hseed => calcGlsb_eq_calcGmsb he rd n hseed

/-- Settles O35: unreflected output without an XOR-out is the bit-serial register itself, which goes on over the next bits. -/
theorem seedOverrideChainsPieces : Obligations.SeedOverrideChainsPieces := by
  intro e rd n m seed0 he hseed hrefout hxorout
  have hfinish (x : Nat) : finishMsb e x = x := by simp [finishMsb, hrefout, hxorout]
  have hchain : calcGmsb e rd (n + m) seed0 = calcGmsb e (fun k => rd (n + k)) m (calcGmsb e rd n seed0) := by
    simp only [calcGmsb_eq_bitCrc he, hfinish, Engine.inputBits_add, bitCrc_append]
  refine ⟨hchain, ?_⟩
  rw [calcGlsb_eq_calcGmsb he rd n hseed, calcGlsb_eq_calcGmsb he _ _ hseed,
    calcGlsb_eq_calcGmsb he _ m (calcGmsb_lt he rd n hseed), hchain]

end Sys2Proof.Machine
end

section
/-! Proofs of the statements about the table-driven engines (43_table_engines.md R140 to R146): a table entry holds the eight rounds of a byte, so a table step is the generic engine's step. -/

namespace Sys2Proof.Machine

/-- A value is its high part, moved back up, and its low `n` bits. -/
theorem shiftRight_shiftLeft_xor_mod (x n : Nat) : (x >>> n) <<< n ^^^ x % 2 ^ n = x := by
  rw [← shiftLeft_add_eq_xor _ (Nat.mod_lt x (Nat.two_pow_pos n)), Nat.shiftLeft_eq, Nat.shiftRight_eq_div_pow,
    Nat.mul_comm, Nat.div_add_mod]

/-- `n` right-shift rounds on a value whose low `n` bits are 0 only shift (R113). -/
theorem rounds_lsb_shiftLeft (p x n : Nat) : rounds (roundLsb p) (x <<< n) n = x := by
  induction n with
  | zero => rfl
  | succ n ih => rw [rounds_succ', Nat.shiftLeft_add, roundLsb_shift, ih]

/-- Eight LSB-first rounds on register and byte: the low eight bits of both give the table entry, and the rest only shifts (R113, R141). -/
theorem rounds_lsb_eq_entry (poly w reg v : Nat) : rounds (roundLsb (reverseBits poly w)) (reg ^^^ v) 8 =
    reg >>> 8 ^^^ directEntry .lsb poly w (reg % 2 ^ 8 ^^^ v) := by
  have hsplit : reg ^^^ v = (reg >>> 8) <<< 8 ^^^ (reg % 2 ^ 8 ^^^ v) := by
    rw [← Nat.xor_assoc, shiftRight_shiftLeft_xor_mod]
  rw [hsplit, rounds_xor _ (roundLsb_xor _), rounds_lsb_shiftLeft]
  rfl

/-- Eight MSB-first rounds on register and byte: the top eight bits of the register and the byte give the table entry, and the rest only shifts (R112, R143). -/
theorem rounds_msb_eq_entry (poly reg v : Nat) {w : Nat} (hw : 8 ≤ w) :
    rounds (roundMsb poly w) (reg ^^^ v <<< (w - 8)) 8 =
      reg <<< 8 % 2 ^ w ^^^ directEntry .msb poly w (reg >>> (w - 8) ^^^ v) := by
  have hsplit : reg ^^^ v <<< (w - 8) = reg % 2 ^ (w - 8) ^^^ (reg >>> (w - 8) ^^^ v) <<< (w - 8) := by
    rw [Nat.shiftLeft_xor_distrib, ← Nat.xor_assoc, Nat.xor_comm (reg % _), shiftRight_shiftLeft_xor_mod]
  have hrest : (reg % 2 ^ (w - 8)) <<< 8 = reg <<< 8 % 2 ^ w := by
    have hpow : 2 ^ w = 2 ^ (w - 8) * 2 ^ 8 := by rw [← Nat.pow_add, Nat.sub_add_cancel hw]
    rw [Nat.shiftLeft_eq, Nat.shiftLeft_eq, hpow, Nat.mul_mod_mul_right]
  have hentry (i : Nat) : directEntry .msb poly w i = rounds (roundMsb poly w) (i <<< (w - 8)) 8 := by
    simp [directEntry, directEntryMsb, lshiftOf, hw.not_gt]
  rw [hsplit, rounds_xor _ (roundMsb_xor _ _), hentry, rounds_msb_shift, hrest]
  exact hrest ▸ Nat.mod_lt _ (Nat.two_pow_pos _)

/-! ### The LSB-first table engine -/

/-- A byte leaves the register of the LSB-first engines within the width (R141, R154). -/
theorem absorbLsb_lt (e : Engine) (v : Byte) {reg : Nat} (hreg : reg < 2 ^ e.width.toNat) :
    absorbLsb e v reg < 2 ^ e.width.toNat := by
  refine rounds_lsb_lt (reverseBits_lt _ _) (Nat.xor_lt_two_pow ?_ ?_)
  · exact hreg.trans_le (Nat.pow_le_pow_right (by omega) (by omega))
  · exact (BitVec.isLt _).trans_le (Nat.pow_le_pow_right (by omega) (by omega))

section
variable {e : Engine} {tab : Nat → Nat} (he : e.WellBuilt)
include he

/-- A table step of the LSB-first engine is the generic step on a byte of reflected input (R141, R154). -/
theorem stepTlsb_eq_absorbLsb (hrefin : e.refin = true)
    (htab : ∀ i, i < 256 → tab i = directEntry .lsb e.epoly.toNat e.width.toNat i)
    (v : Byte) {reg : Nat} (hreg : reg < 2 ^ e.width.toNat) : stepTlsb e tab v reg = absorbLsb e v reg := by
  have hlow : reg &&& 0xFF = reg % 2 ^ 8 := and_mask reg 8
  have hindex : reg % 2 ^ 8 ^^^ v.toNat < 2 ^ 8 := Nat.xor_lt_two_pow (Nat.mod_lt _ (by decide)) v.isLt
  have hstep : absorbLsb e v reg = reg >>> 8 ^^^ tab (reg % 2 ^ 8 ^^^ v.toNat) := by
    rw [absorbLsb, if_pos hrefin, rounds_lsb_eq_entry, htab _ hindex]
  rw [stepTlsb, hlow, he.emask_eq, and_mask, ← hstep, Nat.mod_eq_of_lt (absorbLsb_lt e v hreg)]

/-- The final steps of the LSB-first table engine are the generic ones: `RR` undoes the mirroring exactly when `REFOUT = 0` (R145, R154). -/
theorem finishTable_eq_finishLsb (hrefin : e.refin = true) (reg : Nat) : finishTable e reg = finishLsb e reg := by
  rw [finishTable, finishLsb, he.rr_eq, hrefin]
  cases e.refout <;> rfl

/-- The LSB-first table engine over its table is the generic algorithm with the engine's seed (R134). -/
theorem calcTlsb_eq_calcGmsb (hrefin : e.refin = true)
    (htab : ∀ i, i < 256 → tab i = directEntry .lsb e.epoly.toNat e.width.toNat i) (rd : Nat → Byte) (n : Nat) :
    calcTlsb e tab rd n = calcGmsb e rd n e.eseed.toNat := by
  have hloop := (forLoop_rel (fun x y => x = y ∧ x < 2 ^ e.width.toNat) (fun k => stepTlsb e tab (rd k))
    (fun k => absorbLsb e (rd k)) n (by
      rintro k reg _ - ⟨rfl, hreg⟩
      have hstep := stepTlsb_eq_absorbLsb he hrefin htab (rd k) hreg
      exact ⟨hstep, hstep ▸ absorbLsb_lt e (rd k) hreg⟩) _ _ ⟨rfl, reverseBits_lt e.eseed.toNat e.width.toNat⟩).1
  rw [← calcGlsb_eq_calcGmsb he rd n he.eseed_lt, calcTlsb, calcGlsb, hloop, finishTable_eq_finishLsb he hrefin]

/-! ### The MSB-first table engine -/

section
variable (hw : 8 ≤ e.width.toNat)
include hw

/-- A width of 8 or more needs no alignment (R152). -/
theorem Engine.WellBuilt.lshift_eq_zero : e.lshift.toNat = 0 := by
  rw [he.lshift_eq, lshiftOf, if_neg (by omega)]

/-- A table step of the MSB-first engine is the generic step (R143, R151). -/
theorem stepTmsb_eq_absorbMsb (htab : ∀ i, i < 256 → tab i = directEntry .msb e.epoly.toNat e.width.toNat i)
    (v : Byte) {reg : Nat} (hreg : reg < 2 ^ e.width.toNat) : stepTmsb e tab v reg = absorbMsb e 8 v reg := by
  have hls := he.lshift_eq_zero hw
  have hpoly : e.polyS = e.epoly.toNat := by rw [Engine.polyS, hls, Nat.shiftLeft_zero]
  have hwidth : e.workWidth = e.width.toNat := by rw [Engine.workWidth, hls, Nat.add_zero]
  have hindex : reg >>> (e.width.toNat - 8) ^^^ v.toNat < 2 ^ 8 := by
    refine Nat.xor_lt_two_pow ?_ v.isLt
    rw [Nat.shiftRight_eq_div_pow]
    exact Nat.div_lt_of_lt_mul (by rwa [← Nat.pow_add, Nat.sub_add_cancel hw])
  rw [stepTmsb, he.emask_eq, and_mask, Nat.xor_mod_two_pow, htab _ hindex, Nat.mod_eq_of_lt (directEntry_lt _ _ _ hindex),
    absorbMsb, hpoly, hwidth, rounds_msb_eq_entry _ _ _ hw]

/-- The MSB-first table engine over its table is the generic algorithm with the engine's seed (R134). -/
theorem calcTmsb_eq_calcGmsb (hrefin : e.refin = false)
    (htab : ∀ i, i < 256 → tab i = directEntry .msb e.epoly.toNat e.width.toNat i) (rd : Nat → Byte) (n : Nat) :
    calcTmsb e tab rd n = calcGmsb e rd n e.eseed.toNat := by
  have hbyte (v : Byte) : e.reflectIn v = v := by simp [Engine.reflectIn, hrefin]
  have hloop := (forLoop_rel (fun x y => x = y ∧ x < 2 ^ e.width.toNat) (fun k => stepTmsb e tab (rd k))
    (fun k => absorbMsb e 8 (rd k)) n (by
      rintro k reg _ - ⟨rfl, hreg⟩
      exact ⟨stepTmsb_eq_absorbMsb he hw htab (rd k) hreg, he.stepTmsb_lt _ reg⟩) _ _ ⟨rfl, he.eseed_lt⟩).1
  rw [calcTmsb, calcGmsb, hloop, finishTable, finishMsb, he.rr_eq, hrefin, he.lshift_eq_zero hw]
  simp only [hbyte, Bool.false_xor, Nat.shiftLeft_zero, Nat.shiftRight_zero]

end

end

/-- An entry of a generated table by its index (R118). -/
theorem getD_genTable (c : Conv) (poly : Nat) {w i : Nat} (hw : 1 ≤ w) (hi : i < 256) :
    (genTable c poly w).getD i 0 = directEntry c poly w i := by
  simp [genTable_eq_map_directEntry c poly hw, hi]

/-- Settles O32. -/
theorem lsbTableEngineAgreesWithGeneric : Obligations.LsbTableEngineAgreesWithGeneric := fun _ rd n he hrefin =>
  calcTlsb_eq_calcGmsb he hrefin (fun _ => getD_genTable .lsb _ he.width_pos) rd n

/-- Settles O33. -/
theorem msbTableEngineAgreesWithGeneric : Obligations.MsbTableEngineAgreesWithGeneric := fun _ rd n he hrefin hw =>
  calcTmsb_eq_calcGmsb he hw hrefin (fun _ => getD_genTable .msb _ he.width_pos) rd n

end Sys2Proof.Machine
end

section
/-! Proofs of the statements about the calculate front end (42_engine_build_and_dispatch.md R130 to R136, 45_windowed_engine.md R162): the checks of `CALC` and `CALCW` in order, the value `CALC` leaves on each engine, and what a calculation leaves alone. -/

namespace Sys2Proof.Machine

/-! ### Checks that fail -/

theorem exec_calcBuffer_error {s : State} {so : Bool} {err : Err} (h : firstFailing (s.calcChecks so) = some err) :
    exec (.calcBuffer so) s = .next (s.raiseError err) := by
  rw [exec, execCalc, guarded_fail s _ h]

theorem exec_calcWindow_error {s : State} {so : Bool} (dl : Bool) {err : Err}
    (h : firstFailing (s.calcwChecks so) = some err) : exec (.calcWindow so dl) s = .next (s.raiseError err) := by
  rw [exec, execCalcw, guarded_fail s _ h]

/-- A seed override that is too wide fails its check (R131). -/
theorem State.seedovrWide_of_le {s : State} (h : 2 ^ s.engine.width.toNat ≤ s.seedovr.toNat) :
    s.seedovrWide true = true := by
  simp [State.seedovrWide, fits_eq_false h]

/-- Settles O38: each clause makes its check the first failing one. -/
theorem calcChecksInOrder : Obligations.CalcChecksInOrder := by
  intro s so
  refine ⟨fun hev => ⟨_, exec_calcBuffer_error (err := .illNoengine) ?_, rfl⟩,
    fun hev hso htab => ⟨_, exec_calcBuffer_error (err := .illSeedovr) ?_, rfl⟩,
    fun hev htab hlen => ⟨_, exec_calcBuffer_error (err := .illDlen) ?_, rfl⟩,
    fun hev hso htab hlen hwide => ⟨_, exec_calcBuffer_error (err := .cfgSeedovrWide) ?_, rfl⟩⟩
  · simp [State.calcChecks, firstFailing, hev]
  · simp [State.calcChecks, firstFailing, hev, hso, htab]
  · simp +contextual [State.calcChecks, firstFailing, hev, htab, Config.bufsz, hlen]
  · simp [State.calcChecks, firstFailing, hev, hso, htab, Config.bufsz, hlen.not_gt, State.seedovrWide_of_le hwide]

/-! ### Calculations in a sound state -/

section
variable {s : State} (hinv : s.Inv) (hev : s.status.ev = true)
include hinv hev

/-- A calculation on the built engine of a sound state ends with its value or its error. -/
theorem State.Inv.calculate_eq (r : Except Err Nat) : s.calculate r = .next (s.finishWith r) := by
  rw [State.calculate, (hinv.engine_ok hev).shiftsNegative_eq_false]
  rfl

theorem State.Inv.exec_calcBuffer {so : Bool} (hso : so = true → s.engine.kind.usesTable = false)
    (hlen : s.dlen.toNat ≤ 4096) (hseed : s.SeedFits so) :
    exec (.calcBuffer so) s = .next (s.finishWith (s.runEngine (s.seed0 so))) := by
  rw [exec_calcBuffer_pass (State.calcChecks_pass.mpr ⟨hev, hso, hlen, hseed⟩), hinv.calculate_eq hev]

theorem State.Inv.exec_calcWindow {so : Bool} (dl : Bool) (hwin : s.engine.kind = .win) (hlen : s.dlen.toNat ≤ 4096)
    (hseed : s.SeedFits so) : exec (.calcWindow so dl) s = .next (s.finishWith
      (calcWin s.engine s.dataByte s.dlen.toNat s.windowStart (s.windowLength dl) (s.seed0 so))) := by
  rw [exec_calcWindow_pass dl (State.calcwChecks_pass.mpr ⟨hev, hwin, hlen, hseed⟩), hinv.calculate_eq hev]

/-- The initial value fits the engine, the override by its check and the engine's own seed by construction (R123, R131). -/
theorem State.Inv.seed0_lt {so : Bool} (hseed : s.SeedFits so) : s.seed0 so < 2 ^ s.engine.width.toNat := by
  cases so with
  | true => exact hseed rfl
  | false => exact (hinv.engine_ok hev).eseed_lt

/-- The table of a built table-driven engine holds the closed form of its entries (R118, R140). -/
theorem State.Inv.tableEntry_eq (htab : s.engine.kind.usesTable = true) {i : Nat} (hi : i < 256) :
    (s.tableEntry i).toNat = directEntry s.engine.kind.conv s.engine.epoly.toNat s.engine.width.toNat i := by
  obtain ⟨htv, hinfo⟩ := hinv.engine_table hev htab
  obtain ⟨hw, hw64, -, htable⟩ := hinv.table_ok htv
  rw [hinfo] at hw hw64 htable
  exact State.toNat_tableEntry_generated htable hw hw64 hi

end

/-! ### Windows of whole bytes -/

/-- A window in range whose loop leaves nothing below the alignment passes the residue assertion (R166, R168). -/
theorem calcWin_of_no_residue {e : Engine} {rd : Nat → Byte} {n : Nat} {start length : Int} {seed0 x : Nat}
    (hc : firstFailing (windowChecks n start length) = none)
    (hresidue : windowLoop e rd start.toNat length.toNat (seed0 <<< e.lshift.toNat) &&& mask e.lshift.toNat = 0)
    (hx : windowLoop e rd start.toNat length.toNat (seed0 <<< e.lshift.toNat) >>> e.lshift.toNat = x) :
    calcWin e rd n start length seed0 = .ok (finishMsb e x) := by
  simp [calcWin, hc, hresidue, hx]

/-- An aligned register leaves nothing below the alignment. -/
theorem shiftLeft_and_mask (x n : Nat) : x <<< n &&& mask n = 0 := by
  rw [and_mask, Nat.shiftLeft_eq, Nat.mul_mod_left]

theorem calcWin_of_aligned {e : Engine} {rd : Nat → Byte} {n : Nat} {start length : Int} {seed0 x : Nat}
    (hc : firstFailing (windowChecks n start length) = none)
    (h : windowLoop e rd start.toNat length.toNat (seed0 <<< e.lshift.toNat) = x <<< e.lshift.toNat) :
    calcWin e rd n start length seed0 = .ok (finishMsb e x) :=
  calcWin_of_no_residue hc (h ▸ shiftLeft_and_mask x _) (h ▸ Nat.shiftLeft_shiftRight x _)

/-- The loop over a window of `m` whole bytes is the loop of the full engine over them (R169, R172). -/
theorem windowLoop_bytes (e : Engine) (rd : Nat → Byte) (a reg : Nat) {m : Nat} (hm : 0 < m) :
    windowLoop e rd (8 * a) (8 * m) reg = forLoop (fun k => absorbMsb e 8 (e.reflectIn (rd (a + k)))) reg m := by
  have hfirst : winFirst (8 * a) = a := by unfold winFirst; omega
  have hsoff : winSoff (8 * a) = 0 := by unfold winSoff; omega
  have hlast : winLast (8 * a) (8 * m) = a + m - 1 := by unfold winLast; omega
  have hkeep : winKeep (8 * a) (8 * m) = 8 := by unfold winKeep; omega
  have hcount : a + m - 1 + 1 - a = m := by omega
  have hrounds (b : Nat) : winRounds (8 * a) b = 8 := by simp [winRounds, hsoff]
  have hall (v : Byte) : v &&& endMask 8 = v := BitVec.and_allOnes
  have hbyte (b : Nat) : winByte e (8 * a) (8 * m) b (rd b) = e.reflectIn (rd b) := by
    simp [winByte, hsoff, hkeep, hall]
  rw [windowLoop, if_neg (by omega), hlast, hfirst, hcount]
  simp only [hrounds, hbyte]

/-- Over a window of `m` whole bytes the windowed engine is the full engine (R169, R172). -/
theorem calcWin_bytes {e : Engine} (he : e.WellBuilt) (rd : Nat → Byte) {n a m : Nat} (hm : 0 < m) (hn : a + m ≤ n)
    (seed0 : Nat) : calcWin e rd n (8 * (a : Int)) (8 * (m : Int)) seed0 =
      .ok (calcGmsb e (fun k => rd (a + k)) m seed0) := by
  rw [calcGmsb_eq_bitCrc he]
  refine calcWin_of_aligned (windowChecks_pass.mpr (by omega)) ?_
  have hstart : (8 * (a : Int)).toNat = 8 * a := by omega
  have hlength : (8 * (m : Int)).toNat = 8 * m := by omega
  rw [hstart, hlength, windowLoop_bytes e rd a _ hm, forLoop_absorbMsb he, Engine.inputBits]

/-! ### The value of `CALC` -/

section
variable {s : State} (hinv : s.Inv) (hev : s.status.ev = true)
include hinv hev

/-- Every engine a sound state can have built runs the generic algorithm (R133, R134). -/
theorem State.Inv.runEngine_eq {so : Bool} (hso : so = true → s.engine.kind.usesTable = false) (hseed : s.SeedFits so)
    (hwin : s.engine.kind = .win → 1 ≤ s.dlen.toNat) :
    s.runEngine (s.seed0 so) = .ok (calcGmsb s.engine s.dataByte s.dlen.toNat (s.seed0 so)) := by
  have he := hinv.engine_ok hev
  have hown (htab : s.engine.kind.usesTable = true) : s.seed0 so = s.engine.eseed.toNat := by
    cases so with
    | true => simp [hso rfl] at htab
    | false => rfl
  have hentry := fun htab i hi => hinv.tableEntry_eq hev htab (i := i) hi
  unfold State.runEngine
  dsimp only
  cases hk : s.engine.kind with
  | tlsb =>
    rw [hk] at hown hentry
    exact congrArg Except.ok (hown rfl ▸ calcTlsb_eq_calcGmsb he (he.tlsb_conv hk) (hentry rfl) _ _)
  | tmsb =>
    obtain ⟨hrefin, hw⟩ := he.tmsb_conv hk
    rw [hk] at hown hentry
    exact congrArg Except.ok (hown rfl ▸ calcTmsb_eq_calcGmsb he hw hrefin (hentry rfl) _ _)
  | gmsb => rfl
  | glsb => exact congrArg Except.ok (calcGlsb_eq_calcGmsb he _ _ (hinv.seed0_lt hev hseed))
  | win => simpa using calcWin_bytes he s.dataByte (a := 0) (hwin hk) (Nat.zero_add _).le (s.seed0 so)

/-- `CALC` past its checks leaves the value of the generic algorithm (R133). -/
theorem State.Inv.exec_calcBuffer_value {so : Bool} (hso : so = true → s.engine.kind.usesTable = false)
    (hlen : s.dlen.toNat ≤ 4096) (hseed : s.SeedFits so) (hwin : s.engine.kind = .win → 1 ≤ s.dlen.toNat) :
    exec (.calcBuffer so) s =
      .next (s.setResult (calcGmsb s.engine s.dataByte s.dlen.toNat (s.seed0 so))).complete := by
  rw [hinv.exec_calcBuffer hev hso hlen hseed, hinv.runEngine_eq hev hso hseed hwin]
  rfl

end

/-- Settles O36. -/
theorem calcReturnsTheCrcOnEveryEngine : Obligations.CalcReturnsTheCrcOnEveryEngine := by
  intro s so hinv hev hlen hwin hso hseed
  exact ⟨_, _, hinv.exec_calcBuffer_value hev hso hlen hseed hwin, rfl, rfl,
    calcGmsb_lt (hinv.engine_ok hev) _ _ (hinv.seed0_lt hev hseed), fun _ => rfl⟩

/-- A value of the engine's width fits `RESULT` (R37). -/
theorem Engine.WellBuilt.toNat_ofNat {e : Engine} (he : e.WellBuilt) {x : Nat} (hx : x < 2 ^ e.width.toNat) :
    (BitVec.ofNat 64 x).toNat = x := by
  rw [BitVec.toNat_ofNat, Nat.mod_eq_of_lt]
  exact hx.trans_le (Nat.pow_le_pow_right (by omega) he.width_le)

/-- Settles O37: over no bits the generic algorithm finalises the initial value, and the windowed engine's start lies past the empty buffer. -/
theorem emptyInputReturnsTheSeed : Obligations.EmptyInputReturnsTheSeed := by
  intro s so hinv hev hdlen hso hseed seed0
  have hzero : s.dlen.toNat = 0 := by rw [hdlen]; rfl
  have hlen : s.dlen.toNat ≤ 4096 := by omega
  refine ⟨fun hkind => ⟨_, hinv.exec_calcBuffer_value hev hso hlen hseed (absurd · hkind), rfl, rfl, ?_⟩,
    fun hkind => ⟨_, hinv.exec_calcBuffer hev hso hlen hseed, ?_⟩⟩
  · have he := hinv.engine_ok hev
    rw [State.complete_result, State.setResult_result,
      he.toNat_ofNat (calcGmsb_lt he _ _ (hinv.seed0_lt hev hseed)), hzero, calcGmsb_eq_bitCrc he]
    rfl
  · have hrun : s.runEngine (s.seed0 so) = .error .rngStartHigh := by
      simp [State.runEngine, hkind, hzero, calcWin, windowChecks, firstFailing]
    rw [hrun]
    rfl

/-! ### What a calculation leaves alone -/

/-- A calculation that goes on ends in error entry or with a result (R130, R132, R136). -/
theorem exec_calculation_cases {i : Instr} (hi : (∃ so, i = .calcBuffer so) ∨ (∃ so dl, i = .calcWindow so dl))
    {s t : State} (h : exec i s = .next t) : (∃ e, t = s.raiseError e) ∨ ∃ v, t = (s.setResult v).complete := by
  rcases exec_cases h with herror | hs
  · exact .inl herror
  · rcases hi with ⟨so, rfl⟩ | ⟨so, dl, rfl⟩ <;> obtain ⟨-, -, v, -, rfl⟩ := hs <;> exact .inr ⟨v, rfl⟩

/-- Settles O51: error entry and a completed result write the named fields only. -/
theorem calculationsLeaveTheRestAlone : Obligations.CalculationsLeaveTheRestAlone := by
  intro s t i hi h
  rcases exec_calculation_cases hi h with ⟨e, rfl⟩ | ⟨v, rfl⟩
  · exact ⟨rfl, by simp, fun _ => rfl, fun _ => rfl⟩
  · exact ⟨rfl, by simp, fun _ => rfl, fun _ => rfl⟩

/-! ### The checks of `CALCW` in order -/

/-- A range check that fails is the error of the windowed calculation (R162). -/
theorem calcWin_error (e : Engine) (rd : Nat → Byte) {n : Nat} {start length : Int} {err : Err}
    (h : firstFailing (windowChecks n start length) = some err) (seed0 : Nat) :
    calcWin e rd n start length seed0 = .error err := by
  simp [calcWin, h]

section
variable {n : Nat} {start length : Int}

theorem windowChecks_start_neg (h : start < 0) : firstFailing (windowChecks n start length) = some .rngStartNeg := by
  simp [windowChecks, firstFailing, h]

theorem windowChecks_start_high (h : 8 * (n : Int) ≤ start) :
    firstFailing (windowChecks n start length) = some .rngStartHigh := by
  have hpos : ¬ start < 0 := by omega
  simp [windowChecks, firstFailing, hpos, h]

theorem windowChecks_length_neg (hpos : 0 ≤ start) (hlow : start < 8 * (n : Int)) (h : length < 0) :
    firstFailing (windowChecks n start length) = some .rngLenNeg := by
  simp [windowChecks, firstFailing, hpos.not_gt, hlow.not_ge, h]

theorem windowChecks_end_high (hpos : 0 ≤ start) (hlow : start < 8 * (n : Int)) (h : 8 * (n : Int) < start + length) :
    firstFailing (windowChecks n start length) = some .rngEndHigh := by
  have hlength : ¬ length < 0 := by omega
  have hend : 8 * (n : Int) - start < length := by omega
  simp [windowChecks, firstFailing, hpos.not_gt, hlow.not_ge, hlength, hend]

end

/-- Settles O40: the front-end checks come first, and in a sound state that passes them the window's. -/
theorem calcwChecksInOrder : Obligations.CalcwChecksInOrder := by
  intro s so dl
  refine ⟨fun hev => ⟨_, exec_calcWindow_error (err := .illNoengine) dl ?_, rfl⟩,
    fun hev hkind => ⟨_, exec_calcWindow_error (err := .illNotwin) dl ?_, rfl⟩,
    fun hev hkind hlen => ⟨_, exec_calcWindow_error (err := .illDlen) dl ?_, rfl⟩,
    fun hev hkind hlen hso hwide => ⟨_, exec_calcWindow_error (err := .cfgSeedovrWide) dl ?_, rfl⟩, ?_⟩
  · simp [State.calcwChecks, firstFailing, hev]
  · simp [State.calcwChecks, firstFailing, hev, hkind]
  · simp [State.calcwChecks, firstFailing, hev, hkind, Config.bufsz, hlen]
  · simp [State.calcwChecks, firstFailing, hev, hkind, Config.bufsz, hlen.not_gt, hso, State.seedovrWide_of_le hwide]
  · intro hinv hev hkind hlen hseed total start len
    have hrange {err : Err} (h : firstFailing (windowChecks s.dlen.toNat s.windowStart (s.windowLength dl)) = some err) :
        ∃ t, exec (.calcWindow so dl) s = .next t ∧ s.ErrorOnly t err := by
      refine ⟨s.raiseError err, ?_, rfl⟩
      rw [hinv.exec_calcWindow hev dl hkind hlen hseed, calcWin_error _ _ h]
      rfl
    exact ⟨fun hneg => hrange (windowChecks_start_neg hneg), fun hhigh => hrange (windowChecks_start_high hhigh),
      fun hpos hlow hneg => hrange (windowChecks_length_neg hpos hlow hneg),
      fun hpos hlow hend => hrange (windowChecks_end_high hpos hlow hend)⟩

end Sys2Proof.Machine
end

section
/-! Proofs of the statements about the value of a window (45_windowed_engine.md R163 to R171): which bit of the buffer stands where in a byte made ready, and the register after the loop as the bit-serial CRC of those bits. -/

namespace Sys2Proof.Machine

/-! ### The bytes of a window, bit by bit -/

/-- A byte of the window masked at its end and shifted at its start, before the optional reflection (R164). -/
def alignedByte (start length b : Nat) (v : Byte) : Byte :=
  (if b = winLast start length then v &&& endMask (winKeep start length) else v) <<<
    (if b = winFirst start then winSoff start else 0)

theorem winByte_eq (e : Engine) (start length b : Nat) (v : Byte) :
    winByte e start length b v = e.reflectIn (alignedByte start length b v) := by
  unfold winByte alignedByte
  by_cases h : b = winFirst start <;> simp [h]

/-- The `k`-th affected byte of the window made ready, the first one `k = 0` (R163, R164). -/
def windowByte (e : Engine) (rd : Nat → Byte) (start length k : Nat) : Byte :=
  winByte e start length (winFirst start + k) (rd (winFirst start + k))

/-- The bits of the affected bytes after the first one, in the order in which they enter (R164). -/
def laterBits (e : Engine) (rd : Nat → Byte) (start length : Nat) : List Bool :=
  (List.range (winLast start length - winFirst start)).flatMap fun k => byteBits (windowByte e rd start length (k + 1))

@[simp] theorem laterBits_length (e : Engine) (rd : Nat → Byte) (start length : Nat) :
    (laterBits e rd start length).length = 8 * (winLast start length - winFirst start) := by
  simp [laterBits, List.length_flatMap, Nat.mul_comm]

/-- The mask keeps the `keep` most significant bits (R163). -/
theorem getLsbD_endMask (keep : Nat) {i : Nat} (hi : i < 8) : (endMask keep).getLsbD i = decide (8 - keep ≤ i) := by
  have hones : (0xFF#8).getLsbD (i - (8 - keep)) = true := by
    have hbelow : i - (8 - keep) < 8 := by omega
    rw [show 0xFF#8 = BitVec.allOnes 8 from rfl, BitVec.getLsbD_allOnes, decide_eq_true hbelow]
  rw [endMask, BitVec.getLsbD_shiftLeft, hones, decide_eq_true hi, Bool.true_and, Bool.and_true, ← decide_not]
  exact decide_eq_decide.mpr not_lt

theorem getLsbD_brev (v : Byte) {i : Nat} (hi : i < 8) : (brev v).getLsbD i = v.getLsbD (7 - i) := by
  rw [BitVec.getLsbD, brev_toNat, testBit_reverseBits, decide_eq_true hi]
  rfl

theorem bufferBit_of_lt (rd : Nat → Byte) (b : Nat) {i : Nat} (hi : i < 8) :
    bufferBit rd (8 * b + 7 - i) = (rd b).getLsbD i := by
  have hbyte : (8 * b + 7 - i) / 8 = b := by omega
  have hbit : 7 - (8 * b + 7 - i) % 8 = i := by omega
  rw [bufferBit, hbyte, hbit]

section
variable {start length b : Nat} (rd : Nat → Byte) (hlen : 0 < length) (hb : b ≤ winLast start length)
include hlen hb

/-- The mask clears the bits from the window's end on (R163). -/
theorem getLsbD_maskedByte {i : Nat} (hi : i < 8) :
    (if b = winLast start length then rd b &&& endMask (winKeep start length) else rd b).getLsbD i =
      windowBit rd start length (8 * b + 7 - i) := by
  rw [windowBit, bufferBit_of_lt rd b hi]
  unfold winLast at hb ⊢
  split
  · have hend : 8 - winKeep start length ≤ i ↔ 8 * b + 7 - i < start + length := by unfold winKeep; omega
    rw [BitVec.getLsbD_and, getLsbD_endMask _ hi, Bool.and_comm, decide_eq_decide.mpr hend]
  · have hbelow : 8 * b + 7 - i < start + length := by omega
    simp [hbelow]

/-- The shift moves the first byte's window bits to its top (R164). -/
theorem getLsbD_alignedByte {i : Nat} (hi : i < 8) :
    (alignedByte start length b (rd b)).getLsbD i =
      (decide ((if b = winFirst start then winSoff start else 0) ≤ i) &&
        windowBit rd start length (8 * b + 7 + (if b = winFirst start then winSoff start else 0) - i)) := by
  rw [alignedByte]
  generalize (if b = winFirst start then winSoff start else 0) = soff
  rw [BitVec.getLsbD_shiftLeft, decide_eq_true hi, Bool.true_and]
  by_cases hs : soff ≤ i
  · have hindex : 8 * b + 7 - (i - soff) = 8 * b + 7 + soff - i := by omega
    rw [getLsbD_maskedByte rd hlen hb (by omega), hindex]
    simp [hs]
  · have hbelow : i < soff := by omega
    simp [hs, hbelow]

end

/-! ### The loop: the first byte, then whole bytes -/

/-- The loop takes the first affected byte for `8 - soff` rounds and every later one for eight (R164, R165). -/
theorem windowLoop_eq (e : Engine) (rd : Nat → Byte) {start length : Nat} (hlen : 0 < length) (reg : Nat) :
    windowLoop e rd start length reg =
      forLoop (fun k => absorbMsb e 8 (windowByte e rd start length (k + 1)))
        (absorbMsb e (8 - winSoff start) (windowByte e rd start length 0) reg)
        (winLast start length - winFirst start) := by
  have hcount : winLast start length + 1 - winFirst start = 1 + (winLast start length - winFirst start) := by
    unfold winLast winFirst
    omega
  have hlater (k : Nat) : winRounds start (winFirst start + (k + 1)) = 8 := if_neg (by omega)
  have hfirst : winRounds start (winFirst start) = 8 - winSoff start := if_pos rfl
  rw [windowLoop, if_neg (by omega), hcount, forLoop_add]
  simp only [forLoop, hlater, hfirst, windowByte, Nat.add_zero, Nat.add_comm 1]

/-! ### Unreflected windows (R170) -/

/-- `8n` consecutive places are `n` groups of eight. -/
theorem map_range_eight_mul {α : Type} (f : Nat → α) (n : Nat) : (List.range (8 * n)).map f =
    (List.range n).flatMap fun k => (List.range 8).map fun j => f (8 * k + j) := by
  induction n with
  | zero => rfl
  | succ n ih => simp [Nat.mul_succ, List.range_add, ih, List.range_succ (n := n)]

/-- The padded window is what `end_mask` leaves, up to the end of the last byte (R163, R170). -/
theorem paddedWindow_eq (rd : Nat → Byte) {start length : Nat} (hlen : 0 < length) : paddedWindow rd start length =
    (List.range (8 * (winLast start length + 1) - start)).map fun j => windowBit rd start length (start + j) := by
  have hcount : 8 * (winLast start length + 1) - start = length + (8 - winKeep start length) := by
    unfold winLast winKeep
    omega
  rw [paddedWindow, if_neg (by omega), hcount, List.range_add, List.map_append, List.map_map]
  congr 1
  · refine List.map_congr_left fun j hj => ?_
    simp [windowBit, List.mem_range.mp hj]
  · symm
    simp [List.eq_replicate_iff, windowBit]

/-- No bit of the first byte is left over: its low `soff` bits are 0 (R164). -/
theorem windowByte_zero_shiftLeft_unreflected {e : Engine} (hrefin : e.refin = false) (start length : Nat) (rd : Nat → Byte) :
    windowByte e rd start length 0 <<< (8 - winSoff start) = 0#8 := by
  rw [windowByte, winByte_eq, Engine.reflectIn, hrefin, if_neg Bool.false_ne_true, Nat.add_zero, alignedByte, if_pos rfl,
    ← BitVec.shiftLeft_add]
  exact BitVec.shiftLeft_eq_zero (by omega)

section
variable {e : Engine} {start length : Nat} (rd : Nat → Byte) (hlen : 0 < length) (hrefin : e.refin = false)
include hlen hrefin

/-- With `REFIN = 0` the first byte's window bits enter in buffer order (R170). -/
theorem byteBits_take_first_unreflected :
    (byteBits (windowByte e rd start length 0)).take (8 - winSoff start) =
      (List.range (8 - winSoff start)).map fun j => windowBit rd start length (start + j) := by
  have hb : winFirst start ≤ winLast start length := by unfold winFirst winLast; omega
  have hmin : min (8 - winSoff start) 8 = 8 - winSoff start := by omega
  rw [byteBits, ← List.map_take, List.take_range, hmin]
  refine List.map_congr_left fun j hj => ?_
  have hj8 : j < 8 - winSoff start := List.mem_range.mp hj
  have hin : winSoff start ≤ 7 - j := by omega
  have hindex : 8 * winFirst start + 7 + winSoff start - (7 - j) = start + j := by unfold winFirst winSoff at *; omega
  rw [windowByte, winByte_eq, Engine.reflectIn, hrefin]
  simp [getLsbD_alignedByte rd hlen hb (show 7 - j < 8 by omega), hin, hindex]

/-- With `REFIN = 0` a later byte's bits enter in buffer order (R170). -/
theorem byteBits_later_unreflected {k : Nat} (hk : k < winLast start length - winFirst start) :
    byteBits (windowByte e rd start length (k + 1)) =
      (List.range 8).map fun j => windowBit rd start length (start + (8 - winSoff start + (8 * k + j))) := by
  refine List.map_congr_left fun j hj => ?_
  have hj8 : j < 8 := List.mem_range.mp hj
  have hb : winFirst start + (k + 1) ≤ winLast start length := by omega
  have hindex : 8 * (winFirst start + (k + 1)) + 7 - (7 - j) = start + (8 - winSoff start + (8 * k + j)) := by
    unfold winFirst winSoff
    omega
  rw [windowByte, winByte_eq, Engine.reflectIn, hrefin]
  simp [getLsbD_alignedByte rd hlen hb (show 7 - j < 8 by omega), hindex]

/-- The padded window, first byte and later bytes. -/
theorem paddedWindow_eq_byteBits : paddedWindow rd start length =
    (byteBits (windowByte e rd start length 0)).take (8 - winSoff start) ++ laterBits e rd start length := by
  have hcount : 8 * (winLast start length + 1) - start =
      8 - winSoff start + 8 * (winLast start length - winFirst start) := by
    unfold winLast winFirst winSoff
    omega
  rw [paddedWindow_eq rd hlen, hcount, laterBits, List.range_add, List.map_append, List.map_map,
    byteBits_take_first_unreflected rd hlen hrefin, map_range_eight_mul]
  congr 1
  refine List.flatMap_congr fun k hk => ?_
  rw [byteBits_later_unreflected rd hlen hrefin (List.mem_range.mp hk)]
  rfl

end

/-- With `REFIN = 0` the register stays aligned, and is the bit-serial CRC of the padded window (R170). -/
theorem windowLoop_unreflected {e : Engine} (he : e.WellBuilt) (hrefin : e.refin = false) (rd : Nat → Byte)
    (start length r : Nat) : windowLoop e rd start length (r <<< e.lshift.toNat) =
      bitCrc e.epoly.toNat e.width.toNat r (paddedWindow rd start length) <<< e.lshift.toNat := by
  rcases Nat.eq_zero_or_pos length with rfl | hlen
  · rfl
  · rw [windowLoop_eq e rd hlen, absorbMsb_aligned he _ _ (Nat.sub_le _ _),
      windowByte_zero_shiftLeft_unreflected hrefin, BitVec.toNat_zero, Nat.zero_shiftLeft, Nat.xor_zero,
      forLoop_absorbMsb he, ← bitCrc_append, ← laterBits, ← paddedWindow_eq_byteBits rd hlen hrefin]

/-- The range checks pass on a window in range (R162). -/
theorem State.WindowInRange.checks {s : State} {dl : Bool} (h : s.WindowInRange dl) :
    firstFailing (windowChecks s.dlen.toNat s.windowStart (s.windowLength dl)) = none := windowChecks_pass.mpr h

/-- Settles O41. -/
theorem unreflectedWindowIsThePaddedBitCrc : Obligations.UnreflectedWindowIsThePaddedBitCrc := by
  intro s so dl hinv hev hwin hlen hseed hrange hrefin
  have he := hinv.engine_ok hev
  have hexec := hinv.exec_calcWindow hev dl hwin hlen hseed
  rw [calcWin_of_aligned hrange.checks (windowLoop_unreflected he hrefin _ _ _ _)] at hexec
  exact ⟨_, _, hexec, rfl, rfl, finishMsb_lt he (bitCrc_lt he.epoly_lt (hinv.seed0_lt hev hseed) _), fun _ => rfl⟩

/-! ### Reflected windows (R171) -/

/-- The bits that are still pending, moved to the top of a byte. -/
theorem byteBits_shiftLeft (v : Byte) {n : Nat} (hn : n ≤ 8) :
    byteBits (v <<< n) = (byteBits v).drop n ++ List.replicate n false := by
  refine List.ext_getElem (by simp; omega) fun j hj _ => ?_
  have hj8 : j < 8 := by simpa using hj
  rw [byteBits_getElem, BitVec.getLsbD_shiftLeft, List.getElem_append]
  by_cases hin : j < 8 - n
  · have hindex : 7 - j - n = 7 - (n + j) := by omega
    have hrange : 7 - j < 8 ∧ ¬ 7 - j < n := by omega
    simp [hin, hindex, hrange]
  · have hout : 7 - j < n := by omega
    simp [hin, hout]

theorem byteBits_xor (u v : Byte) : byteBits (u ^^^ v) = List.zipWith xor (byteBits u) (byteBits v) := by
  refine List.ext_getElem (by simp) fun j _ _ => ?_
  simp

/-- Zero bits after the pending ones change nothing. -/
theorem mixFront_append_replicate {pending bits : List Bool} {n : Nat} (h : pending.length + n ≤ bits.length) :
    mixFront (pending ++ List.replicate n false) bits = mixFront pending bits := by
  have hcount : n + (bits.length - (pending.length + n)) = bits.length - pending.length := by omega
  rw [mixFront, mixFront, List.append_assoc, List.length_append, List.length_replicate,
    List.replicate_append_replicate, hcount]

/-- A byte mixed with a byte. -/
theorem mixFront_byteBits (u v : Byte) : mixFront (byteBits u) (byteBits v) = byteBits (u ^^^ v) := by
  simp [mixFront, byteBits_xor]

theorem bitsValue_append (a : List Bool) (b : Bool) : bitsValue (a ++ [b]) = 2 * bitsValue a + b.toNat := by
  simp [bitsValue]

theorem bitsValue_append_replicate (bits : List Bool) (n : Nat) :
    bitsValue (bits ++ List.replicate n false) = bitsValue bits <<< n := by
  induction n with
  | zero => simp
  | succ n ih =>
    rw [List.replicate_succ', ← List.append_assoc, bitsValue_append, ih, Nat.shiftLeft_add, Nat.shiftLeft_eq _ 1]
    simp [Nat.mul_comm]

/-- The bits of a byte are its value. -/
theorem bitsValue_byteBits (v : Byte) : bitsValue (byteBits v) = v.toNat := by
  revert v
  decide +kernel

/-- The pending bits at the top of the register, seen from the aligned register (R171). -/
theorem pending_shiftRight (v : Byte) {soff w ls : Nat} (hsoff : soff ≤ 8) (hrw : 8 ≤ w + ls) :
    (v <<< (8 - soff)).toNat <<< (w + ls - 8) >>> ls = bitsValue ((byteBits v).drop (8 - soff)) <<< w >>> soff := by
  have hvalue : (v <<< (8 - soff)).toNat = bitsValue ((byteBits v).drop (8 - soff)) <<< (8 - soff) := by
    rw [← bitsValue_byteBits, byteBits_shiftLeft v (Nat.sub_le _ _), bitsValue_append_replicate]
  generalize bitsValue ((byteBits v).drop (8 - soff)) = p at hvalue ⊢
  have hplace : 8 - soff + (w + ls - 8) = w + ls - soff := by omega
  have htop : w + ls = w + ls - soff + soff := by omega
  calc (v <<< (8 - soff)).toNat <<< (w + ls - 8) >>> ls
      = p <<< (w + ls - soff) >>> ls := by rw [hvalue, ← Nat.shiftLeft_add, hplace]
    _ = p <<< (w + ls) >>> soff >>> ls := by
      conv => rhs; rw [htop, Nat.shiftLeft_add, Nat.shiftLeft_shiftRight]
    _ = p <<< w >>> soff := by
      rw [← Nat.shiftRight_add, Nat.add_comm soff, Nat.shiftRight_add, Nat.shiftLeft_add, Nat.shiftLeft_shiftRight]

/-- Bits pending at the top of the register are mixed into the next byte (R171). -/
theorem forLoop_absorbMsb_pending {e : Engine} (he : e.WellBuilt) (u : Byte) (f : Nat → Byte) (r : Nat) {n : Nat}
    (hn : 0 < n) :
    forLoop (fun k => absorbMsb e 8 (f k)) (r <<< e.lshift.toNat ^^^ u.toNat <<< (e.workWidth - 8)) n =
      bitCrc e.epoly.toNat e.width.toNat r (mixFront (byteBits u) ((List.range n).flatMap fun k => byteBits (f k)))
        <<< e.lshift.toNat := by
  obtain ⟨m, rfl⟩ : ∃ m, n = 1 + m := ⟨n - 1, by omega⟩
  have hmix : absorbMsb e 8 (f 0) (r <<< e.lshift.toNat ^^^ u.toNat <<< (e.workWidth - 8)) =
      absorbMsb e 8 (u ^^^ f 0) (r <<< e.lshift.toNat) := by
    rw [absorbMsb, absorbMsb, BitVec.toNat_xor, Nat.shiftLeft_xor_distrib, Nat.xor_assoc]
  have hbits : ((List.range (1 + m)).flatMap fun k => byteBits (f k)) =
      byteBits (f 0) ++ (List.range m).flatMap fun k => byteBits (f (1 + k)) := by
    simp [List.range_add, List.flatMap_map]
  rw [forLoop_add, forLoop, forLoop, hmix, absorbMsb_byte he, forLoop_absorbMsb he, hbits,
    mixFront_append (by simp), mixFront_byteBits, bitCrc_append]

/-- With `REFIN = 1` the bits of a byte made ready enter from the least significant one up (R171). -/
theorem byteBits_windowByte_reflected {e : Engine} (hrefin : e.refin = true) (rd : Nat → Byte) {start length k : Nat}
    (hlen : 0 < length) (hk : winFirst start + k ≤ winLast start length) :
    byteBits (windowByte e rd start length k) = reflectedByte rd start length (winFirst start + k) := by
  rw [byteBits, reflectedByte]
  refine List.map_congr_left fun j hj => ?_
  have hj8 : j < 8 := List.mem_range.mp hj
  have hindex : 7 - (7 - j) = j := by omega
  rw [windowByte, winByte_eq, Engine.reflectIn, if_pos hrefin, getLsbD_brev _ (by omega), hindex,
    getLsbD_alignedByte rd hlen hk hj8]
  rfl

/-! #### One affected byte, and several -/

section
variable {e : Engine} (he : e.WellBuilt) (rd : Nat → Byte) {start length : Nat} (hlen : 0 < length) (seed0 : Nat)

theorem reflectedRegister_one (poly w : Nat) (hlen : 0 < length) (hone : winLast start length = winFirst start) :
    reflectedRegister poly w seed0 rd start length =
      bitCrc poly w seed0 ((reflectedByte rd start length (winFirst start)).take (8 - winSoff start)) ^^^
        bitsValue ((reflectedByte rd start length (winFirst start)).drop (8 - winSoff start)) <<< w >>> winSoff start := by
  rw [reflectedRegister, if_neg (by omega)]
  exact if_pos hone

theorem reflectedRegister_several (poly w : Nat) (hlen : 0 < length) (hseveral : winLast start length ≠ winFirst start) :
    reflectedRegister poly w seed0 rd start length =
      bitCrc poly w
        (bitCrc poly w seed0 ((reflectedByte rd start length (winFirst start)).take (8 - winSoff start)))
        (mixFront ((reflectedByte rd start length (winFirst start)).drop (8 - winSoff start))
          ((List.range (winLast start length - winFirst start)).flatMap fun k =>
            reflectedByte rd start length (winFirst start + 1 + k))) := by
  rw [reflectedRegister, if_neg (by omega)]
  exact if_neg hseveral

include he hlen

/-- Of a single affected byte the last `soff` bits stay at the top of the working register (R165). -/
theorem windowLoop_one (hone : winLast start length = winFirst start) :
    windowLoop e rd start length (seed0 <<< e.lshift.toNat) =
      bitCrc e.epoly.toNat e.width.toNat seed0
        ((byteBits (windowByte e rd start length 0)).take (8 - winSoff start)) <<< e.lshift.toNat ^^^
      (windowByte e rd start length 0 <<< (8 - winSoff start)).toNat <<< (e.workWidth - 8) := by
  rw [windowLoop_eq e rd hlen, absorbMsb_aligned he _ _ (Nat.sub_le _ _), hone, Nat.sub_self, forLoop]

section
variable (hrefin : e.refin = true)
include hrefin

/-- A single affected byte of reflected input leaves the described register above the alignment (R171). -/
theorem windowLoop_reflected_one (hone : winLast start length = winFirst start) :
    windowLoop e rd start length (seed0 <<< e.lshift.toNat) >>> e.lshift.toNat =
      reflectedRegister e.epoly.toNat e.width.toNat seed0 rd start length := by
  have hsoff : winSoff start ≤ 8 := by unfold winSoff; omega
  rw [windowLoop_one he rd hlen seed0 hone, Nat.shiftRight_xor_distrib, Nat.shiftLeft_shiftRight, Engine.workWidth,
    pending_shiftRight _ hsoff he.eight_le_workWidth, byteBits_windowByte_reflected hrefin rd hlen hone.ge,
    Nat.add_zero, reflectedRegister_one rd seed0 _ _ hlen hone]

/-- Several affected bytes of reflected input leave the described register, aligned (R171). -/
theorem windowLoop_reflected_several (hseveral : winLast start length ≠ winFirst start) :
    windowLoop e rd start length (seed0 <<< e.lshift.toNat) =
      reflectedRegister e.epoly.toNat e.width.toNat seed0 rd start length <<< e.lshift.toNat := by
  have hfirst : winFirst start ≤ winLast start length := by unfold winFirst winLast; omega
  have hlater : laterBits e rd start length = (List.range (winLast start length - winFirst start)).flatMap fun k =>
      reflectedByte rd start length (winFirst start + 1 + k) := by
    refine List.flatMap_congr fun k hk => ?_
    have hk' := List.mem_range.mp hk
    rw [byteBits_windowByte_reflected hrefin rd hlen (by omega), Nat.add_assoc, Nat.add_comm k]
  have hroom : ((byteBits (windowByte e rd start length 0)).drop (8 - winSoff start)).length + (8 - winSoff start) ≤
      (laterBits e rd start length).length := by
    rw [List.length_drop, byteBits_length, laterBits_length]
    omega
  rw [windowLoop_eq e rd hlen, absorbMsb_aligned he _ _ (Nat.sub_le _ _), forLoop_absorbMsb_pending he _ _ _ (by omega),
    byteBits_shiftLeft _ (Nat.sub_le _ _), ← laterBits, mixFront_append_replicate hroom, hlater,
    byteBits_windowByte_reflected hrefin rd hlen hfirst, Nat.add_zero,
    reflectedRegister_several rd seed0 _ _ hlen hseveral]

/-- The bits of a single reflected byte that lie below the alignment are the window's first `soff - w` bits (R166). -/
theorem testBit_pending (hone : winLast start length = winFirst start) {i : Nat} (hi : i < e.lshift.toNat) :
    ((windowByte e rd start length 0 <<< (8 - winSoff start)).toNat <<< (e.workWidth - 8)).testBit i =
      (decide (e.workWidth - winSoff start ≤ i) &&
        windowBit rd start length (start + (i - (e.workWidth - winSoff start)))) := by
  have hrw := he.eight_le_workWidth
  have hsoff : winSoff start < 8 := Nat.mod_lt _ (by decide)
  have hls : e.lshift.toNat < 8 := e.lshift.isLt
  rw [Nat.testBit_shiftLeft, BitVec.testBit_toNat, BitVec.getLsbD_shiftLeft, windowByte, winByte_eq, Engine.reflectIn, if_pos hrefin,
    Nat.add_zero]
  by_cases hin : e.workWidth - winSoff start ≤ i
  · have hplace : e.workWidth - 8 ≤ i ∧ i - (e.workWidth - 8) < 8 ∧
        ¬ i - (e.workWidth - 8) < 8 - winSoff start := by omega
    have hindex : i - (e.workWidth - 8) - (8 - winSoff start) = i - (e.workWidth - winSoff start) := by omega
    generalize hq : i - (e.workWidth - winSoff start) = q at hindex ⊢
    have hbit : 8 * winFirst start + 7 + winSoff start - (7 - q) = start + q := by
      unfold winFirst winSoff at *
      omega
    have hend : ¬ winSoff start ≤ 7 - q → ¬ start + q < start + length := by
      unfold winLast winFirst winSoff at *
      omega
    rw [hindex, getLsbD_brev _ (by omega), getLsbD_alignedByte rd hlen hone.ge (by omega), if_pos rfl, hbit]
    simp only [hplace, hin, decide_true, decide_false, Bool.not_false, Bool.true_and]
    by_cases hq7 : winSoff start ≤ 7 - q
    · simp [hq7]
    · simp [hq7, windowBit, hend hq7]
  · by_cases htop : e.workWidth - 8 ≤ i
    · have hout : i - (e.workWidth - 8) < 8 - winSoff start := by omega
      simp [hin, hout]
    · simp [hin, htop]

/-- Without a 1 among the window's first `soff - w` bits no 1 stands below the alignment (R166). -/
theorem windowLoop_no_residue (hleft : ¬ residueLeft e rd start length) :
    windowLoop e rd start length (seed0 <<< e.lshift.toNat) &&& mask e.lshift.toNat = 0 := by
  by_cases hone : winLast start length = winFirst start
  · rw [windowLoop_one he rd hlen seed0 hone, Nat.and_xor_distrib_right, shiftLeft_and_mask, Nat.zero_xor, and_mask]
    refine Nat.eq_of_testBit_eq fun i => ?_
    rw [Nat.testBit_mod_two_pow, Nat.zero_testBit, Bool.and_eq_false_imp, decide_eq_true_eq]
    intro hi
    rw [testBit_pending he rd hlen hrefin hone hi, Bool.eq_false_iff]
    intro hset
    obtain ⟨hplace, hend, hbit⟩ : e.workWidth - winSoff start ≤ i ∧
        start + (i - (e.workWidth - winSoff start)) < start + length ∧
        bufferBit rd (start + (i - (e.workWidth - winSoff start))) = true := by simpa [windowBit] using hset
    unfold Engine.workWidth at *
    exact hleft ⟨hrefin, hlen, hone.symm, by omega, _, by omega, hbit⟩
  · rw [windowLoop_reflected_several he rd hlen seed0 hrefin hone, shiftLeft_and_mask]

/-- The register of a window with reflected input, above the alignment (R171). -/
theorem windowLoop_reflected : windowLoop e rd start length (seed0 <<< e.lshift.toNat) >>> e.lshift.toNat =
    reflectedRegister e.epoly.toNat e.width.toNat seed0 rd start length := by
  by_cases hone : winLast start length = winFirst start
  · exact windowLoop_reflected_one he rd hlen seed0 hrefin hone
  · rw [windowLoop_reflected_several he rd hlen seed0 hrefin hone, Nat.shiftLeft_shiftRight]

end

end

/-- Without a residue a reflected window in range has the described register as its value, finalised (R168, R171). -/
theorem calcWin_reflected {e : Engine} (he : e.WellBuilt) (hrefin : e.refin = true) {rd : Nat → Byte} {n : Nat}
    {start length : Int} (hc : firstFailing (windowChecks n start length) = none)
    (hleft : ¬ residueLeft e rd start.toNat length.toNat) (seed0 : Nat) :
    calcWin e rd n start length seed0 =
      .ok (finishMsb e (reflectedRegister e.epoly.toNat e.width.toNat seed0 rd start.toNat length.toNat)) := by
  rcases Nat.eq_zero_or_pos length.toNat with hzero | hlen
  · refine calcWin_of_aligned hc ?_
    rw [hzero]
    rfl
  · exact calcWin_of_no_residue hc (windowLoop_no_residue he rd hlen seed0 hrefin hleft)
      (windowLoop_reflected he rd hlen seed0 hrefin)

/-- Settles O58. -/
theorem reflectedWindowMixesItsPartialFirstByte : Obligations.ReflectedWindowMixesItsPartialFirstByte := by
  intro s so dl hinv hev hwin hlen hseed hrange hrefin hleft
  have hexec := hinv.exec_calcWindow hev dl hwin hlen hseed
  rw [calcWin_reflected (hinv.engine_ok hev) hrefin hrange.checks hleft] at hexec
  exact ⟨_, hexec, rfl, fun _ => rfl⟩

end Sys2Proof.Machine
end

section
/-! Proof of the statement about a window that starts on a byte boundary and ends anywhere in a byte (45_windowed_engine.md R163, R164, R170, R171): its loop is the full engine's over its bytes, the last one masked. -/

namespace Sys2Proof.Machine

/-- `end_mask` as arithmetic: the bits below the `keep` most significant ones become 0 (R163). -/
theorem and_endMask_eq_ofNat (v : Byte) (keep : Nat) :
    v &&& endMask keep = BitVec.ofNat 8 (v.toNat / 2 ^ (8 - keep) * 2 ^ (8 - keep)) := by
  refine BitVec.eq_of_getLsbD_eq fun i hi => ?_
  rw [BitVec.getLsbD_and, getLsbD_endMask _ hi, BitVec.getLsbD_ofNat, Nat.testBit_mul_two_pow, Nat.testBit_div_two_pow]
  by_cases hkept : 8 - keep ≤ i
  · simp [hkept, hi, BitVec.getLsbD]
  · simp [hkept]

section
variable {keep : Nat} (hpos : 1 ≤ keep) (hkeep : keep ≤ 8)
include hpos hkeep

/-- No byte of a window with an aligned start is shifted, and only the last one is masked (R164). -/
theorem winByte_alignedStart (e : Engine) (a m k : Nat) (v : Byte) :
    winByte e (8 * a) (8 * m + keep) (a + k) v = e.reflectIn (if k = m then v &&& endMask keep else v) := by
  have hsoff : winSoff (8 * a) = 0 := Nat.mul_mod_right 8 a
  have hlast : a + k = winLast (8 * a) (8 * m + keep) ↔ k = m := by unfold winLast; omega
  have hend : winKeep (8 * a) (8 * m + keep) = keep := by unfold winKeep; omega
  rw [winByte_eq, alignedByte, hsoff, ite_self, BitVec.shiftLeft_zero, hend]
  simp only [hlast]

/-- The loop over a window with an aligned start is the loop of the full engine over its bytes made ready (R164, R165). -/
theorem windowLoop_alignedStart (e : Engine) (rd : Nat → Byte) (a m reg : Nat) :
    windowLoop e rd (8 * a) (8 * m + keep) reg =
      forLoop (fun k => absorbMsb e 8 (e.reflectIn (if k = m then rd (a + m) &&& endMask keep else rd (a + k))))
        reg (m + 1) := by
  have hfirst : winFirst (8 * a) = a := by unfold winFirst; omega
  have hrounds (b : Nat) : winRounds (8 * a) b = 8 := by simp [winRounds, winSoff]
  have hcount : winLast (8 * a) (8 * m + keep) + 1 - a = m + 1 := by unfold winLast; omega
  have hbyte (k : Nat) : (if k = m then rd (a + k) &&& endMask keep else rd (a + k)) =
      if k = m then rd (a + m) &&& endMask keep else rd (a + k) := by
    split
    · next hk => rw [hk]
    · rfl
  rw [windowLoop, if_neg (by omega), hfirst, hcount]
  simp only [hrounds, winByte_alignedStart hpos hkeep, hbyte]

end

/-- Settles O59: the loop is the full engine's, whose register stays aligned, so no residue is left. -/
theorem alignedStartIsTheCrcOfTheMaskedBytes : Obligations.AlignedStartIsTheCrcOfTheMaskedBytes := by
  intro e rd n a m keep seed0 he _ hpos hkeep hin
  have hstart : (8 * (a : Int)).toNat = 8 * a := by omega
  have hlength : (8 * (m : Int) + keep).toNat = 8 * m + keep := by omega
  rw [calcGmsb_eq_bitCrc he]
  refine calcWin_of_aligned (windowChecks_pass.mpr (by omega)) ?_
  rw [hstart, hlength, windowLoop_alignedStart hpos hkeep, forLoop_absorbMsb he, and_endMask_eq_ofNat, Engine.inputBits]

end Sys2Proof.Machine
end

section
/-! Proofs of the statements about which windows have a value (45_windowed_engine.md R166, R167, R172): byte-aligned windows have the full engine's, windows of no bits the finalised initial register, and the residue assertion fails exactly in R166's situation. -/

namespace Sys2Proof.Machine

/-- Settles O34: the window is the `b - a` whole bytes from `a` on. -/
theorem alignedWindowIsTheCrcOfItsBytes : Obligations.AlignedWindowIsTheCrcOfItsBytes := by
  intro e rd n a b seed0 he _ hab hbn
  rw [← Nat.cast_sub hab.le]
  exact calcWin_bytes he rd (by omega) (by omega) seed0

/-- A window of no bits in the buffer leaves the initial register untouched, whatever `REFIN` and the alignment are (R167). -/
theorem calcWin_empty (e : Engine) (rd : Nat → Byte) {n : Nat} {start : Int} (hpos : 0 ≤ start)
    (hlow : start < 8 * (n : Int)) (seed0 : Nat) : calcWin e rd n start 0 seed0 = .ok (finishMsb e seed0) :=
  calcWin_of_aligned (windowChecks_pass.mpr (by omega)) rfl

/-- Settles O43. -/
theorem emptyWindowReturnsTheSeed : Obligations.EmptyWindowReturnsTheSeed := by
  intro s so hinv hev hwin hlen hseed hpos hlow hlength seed0
  have hexec := hinv.exec_calcWindow hev false hwin hlen hseed
  have hzero : s.windowLength false = 0 := by simp [State.windowLength, hlength]
  rw [hzero, calcWin_empty _ _ (start := s.windowStart) hpos hlow] at hexec
  exact ⟨_, hexec, rfl, fun _ => rfl⟩

/-! ### The residue assertion (R166) -/

/-- A byte that enters keeps the register within the working width (R151, R164). -/
theorem absorbMsb_lt {e : Engine} (he : e.WellBuilt) (bw : Nat) (v : Byte) {reg : Nat} (hreg : reg < 2 ^ e.workWidth) :
    absorbMsb e bw v reg < 2 ^ e.workWidth := by
  have hplace : e.workWidth = 8 + (e.workWidth - 8) := by have := he.eight_le_workWidth; omega
  have htop : v.toNat <<< (e.workWidth - 8) < 2 ^ e.workWidth := by
    conv => rhs; rw [hplace]
    exact Nat.shiftLeft_lt v.isLt
  exact rounds_msb_lt _ _ _ _ (Nat.xor_lt_two_pow hreg htop)

/-- The register after the loop, above the alignment, fits the engine's width (R168). -/
theorem windowLoop_shiftRight_lt {e : Engine} (he : e.WellBuilt) (rd : Nat → Byte) (start length : Nat) {seed0 : Nat}
    (hseed : seed0 < 2 ^ e.width.toNat) :
    windowLoop e rd start length (seed0 <<< e.lshift.toNat) >>> e.lshift.toNat < 2 ^ e.width.toNat := by
  have hreg : seed0 <<< e.lshift.toNat < 2 ^ e.workWidth := Nat.shiftLeft_lt hseed
  have hloop : windowLoop e rd start length (seed0 <<< e.lshift.toNat) < 2 ^ e.workWidth := by
    unfold windowLoop
    split
    · exact hreg
    · exact forLoop_inv (· < 2 ^ e.workWidth) _ (fun _ _ => absorbMsb_lt he _ _) _ _ hreg
  rw [Nat.shiftRight_eq_div_pow]
  exact Nat.div_lt_of_lt_mul (by rwa [← Nat.pow_add, Nat.add_comm])

/-- A 1 among the window's first `soff - w` bits stands below the alignment (R166). -/
theorem windowLoop_residue {e : Engine} (he : e.WellBuilt) {rd : Nat → Byte} {start length : Nat}
    (hleft : residueLeft e rd start length) (seed0 : Nat) :
    windowLoop e rd start length (seed0 <<< e.lshift.toNat) &&& mask e.lshift.toNat ≠ 0 := by
  obtain ⟨hrefin, hlen, hone, hnarrow, j, hj, hbit⟩ := hleft
  have hsoff : winSoff start < 8 := Nat.mod_lt _ (by decide)
  have hrw := he.eight_le_workWidth
  have hbelow : e.workWidth - winSoff start + j < e.lshift.toNat := by unfold Engine.workWidth at *; omega
  have hin : start + j < start + length := by omega
  have hset := testBit_pending he rd hlen hrefin hone.symm hbelow
  rw [windowLoop_one he rd hlen seed0 hone.symm, Nat.and_xor_distrib_right, shiftLeft_and_mask, Nat.zero_xor]
  refine ne_of_apply_ne (Nat.testBit · (e.workWidth - winSoff start + j)) ?_
  simp only [Nat.testBit_and, testBit_mask, hset]
  simp [hbelow, windowBit, hin, hbit]

/-- The residue assertion holds exactly outside R166's situation. -/
theorem windowLoop_no_residue_iff {e : Engine} (he : e.WellBuilt) (rd : Nat → Byte) (start length seed0 : Nat) :
    windowLoop e rd start length (seed0 <<< e.lshift.toNat) &&& mask e.lshift.toNat = 0 ↔
      ¬ residueLeft e rd start length := by
  refine ⟨fun hzero hleft => windowLoop_residue he hleft seed0 hzero, fun hleft => ?_⟩
  rcases Nat.eq_zero_or_pos length with rfl | hlen
  · exact shiftLeft_and_mask seed0 _
  · cases hrefin : e.refin with
    | false => rw [windowLoop_unreflected he hrefin, shiftLeft_and_mask]
    | true => exact windowLoop_no_residue he rd hlen seed0 hrefin hleft

section
variable {e : Engine} (he : e.WellBuilt) {rd : Nat → Byte} {n : Nat} {start length : Int} {seed0 : Nat}
  (hc : firstFailing (windowChecks n start length) = none)
include he hc

theorem calcWin_residue (hleft : residueLeft e rd start.toNat length.toNat) :
    calcWin e rd n start length seed0 = .error .intResidue := by
  have hresidue := windowLoop_residue he hleft seed0
  simp [calcWin, hc, hresidue]

/-- Without a residue a window in range has a value of the engine's width (R168). -/
theorem calcWin_value (hseed : seed0 < 2 ^ e.width.toNat) (hleft : ¬ residueLeft e rd start.toNat length.toNat) :
    ∃ r, calcWin e rd n start length seed0 = .ok r ∧ r < 2 ^ e.width.toNat :=
  ⟨_, calcWin_of_no_residue hc ((windowLoop_no_residue_iff he rd _ _ seed0).mpr hleft) rfl,
    finishMsb_lt he (windowLoop_shiftRight_lt he rd _ _ hseed)⟩

end

/-- Settles O42. -/
theorem residueAssertionFailsExactly : Obligations.ResidueAssertionFailsExactly := by
  intro s so dl hinv hev hwin hlen hseed hrange left
  have he := hinv.engine_ok hev
  have hexec := hinv.exec_calcWindow hev dl hwin hlen hseed
  refine ⟨fun hleft => ?_, fun hleft => ?_⟩
  · rw [calcWin_residue he hrange.checks hleft] at hexec
    exact ⟨_, hexec, rfl⟩
  · obtain ⟨r, hvalue, hr⟩ := calcWin_value he hrange.checks (hinv.seed0_lt hev hseed) hleft
    rw [hvalue] at hexec
    exact ⟨_, r, hexec, rfl, hvalue, hr, fun _ => rfl⟩

end Sys2Proof.Machine
end

section
/-! Proofs about the system commands (46_system_commands.md R180, R181): what a reset block reads as in each space of the port, and what `CLRERR` leaves as it reads. -/

namespace Sys2Proof.Machine

/-! ### A reset block -/

theorem exec_srst (s : State) : exec .srst s = .next s.toReset := rfl

/-- Every register of R46 reads as after reset: none reads what a reset of a running block keeps (R181). -/
@[simp] theorem State.readReg_toReset (s : State) (r : Reg) : s.toReset.readReg r = State.reset.readReg r := by
  cases r <;> rfl

@[simp] theorem State.portRead_reg_toReset (s : State) (n : Nat) :
    s.toReset.portRead .reg n = State.reset.portRead .reg n := by
  cases hn : Reg.ofNumber n with
  | none => rw [State.portRead_unimplemented _ hn, State.portRead_unimplemented _ hn]
  | some r => rw [Reg.eq_number_of_ofNumber hn, State.portRead_number, State.portRead_number, State.readReg_toReset]

/-- A reset leaves no byte listed, so every address holds a free value anew (R213; logs 4, 6). -/
@[simp] theorem State.dataByte_toReset (s : State) (a : Nat) :
    s.toReset.dataByte a = Config.initData (s.draws + 1) a := by
  simp [State.dataByte, State.reset, Memory.lookup]

/-- A reset leaves no entry generated, so every index holds a free value anew (R213; logs 5, 6). -/
@[simp] theorem State.tableEntry_toReset (s : State) (i : Nat) :
    s.toReset.tableEntry i = Config.initTable (s.draws + 1) i := by
  simp [State.tableEntry, State.reset]

/-- The hardware reset input does what `SRST` does, whatever inputs come after it (R210, R212; log 3). -/
theorem step_reset {s : State} {rest : List Input} (h : s.script = .reset :: rest) :
    step s = .next (s.toReset.advance rest) := step_hostOperation h rfl

/-- Settles O13. -/
theorem softResetEqualsReset : Obligations.SoftResetEqualsReset := by
  intro s
  refine ⟨s.toReset, exec_srst s, s.portRead_reg_toReset, s.toReset_status, s.toReset_engine, s.toReset_params,
    s.dataByte_toReset, s.tableEntry_toReset, s.toReset_script, s.toReset_reads, fun rest => ?_⟩
  -- Resetting overwrites the whole state but the host's script and list, so the script put before it is gone.
  exact step_reset (s := { s with script := .reset :: rest }) rfl

/-! ### `CLRERR` -/

theorem exec_clrerr (s : State) : exec .clrerr s = .next s.clearSticky.complete := rfl

@[simp] theorem State.dataByte_clearSticky_complete (s : State) (a : Nat) :
    s.clearSticky.complete.dataByte a = s.dataByte a := by
  simp [State.dataByte]

@[simp] theorem State.tableEntry_clearSticky_complete (s : State) (i : Nat) :
    s.clearSticky.complete.tableEntry i = s.tableEntry i := by
  simp [State.tableEntry]

/-- Settles O45. -/
theorem clrerrClearsTheStickyError : Obligations.ClrerrClearsTheStickyError :=
  fun s => ⟨_, exec_clrerr s, rfl, s.dataByte_clearSticky_complete, s.tableEntry_clearSticky_complete⟩

end Sys2Proof.Machine
end

section
/-! Proofs about the block's exceptions (60_exceptions.md R186 to R190, R202): error entry and its codes, and which errors a command can end in. -/

namespace Sys2Proof.Machine

/-! ### Error entry -/

/-- Every error, in the order of R186's table. -/
def Err.all : List Err :=
  [.rngStartNeg, .rngStartHigh, .rngLenNeg, .rngEndHigh, .cfgWidthZero, .cfgWidthBig, .cfgPolyWide, .cfgSeedWide,
    .cfgXoroutWide, .cfgConv, .cfgTmsbNarrow, .cfgSeedovrWide, .intResidue, .illOp, .illField, .illNbits,
    .illNoengine, .illNotwin, .illSeedovr, .illDlen]

theorem Err.mem_all (e : Err) : e ∈ Err.all := by cases e <;> decide

/-- The twenty codes of R186 repeat none. -/
theorem Err.code_injective {e f : Err} (h : e.code = f.code) : e = f := by
  have hnodup : (Err.all.map Err.code).Nodup := by decide
  exact List.inj_on_of_nodup_map hnodup e.mem_all f.mem_all h

/-- Settles O46. -/
theorem errorEntryRecordsTheCode : Obligations.ErrorEntryRecordsTheCode :=
  ⟨rfl, fun _ _ => Err.code_injective, fun _ _ => rfl⟩

/-! ### The errors that lists of checks can raise -/

theorem widthPolyChecks_errors (c : Conv) (p : Params) : (widthPolyChecks p).map Prod.snd = c.gentab.errors := by
  cases c <;> rfl

theorem commonChecks_errors (p : Params) : (commonChecks p).map Prod.snd = commonErrors := rfl

/-- The checks of a `BUILD` by name raise the errors of its row in R202. -/
theorem buildChecks_errors (k : Kind) (p : Params) :
    (commonChecks p ++ kindChecks k p).map Prod.snd = k.build.errors := by cases k <;> rfl

theorem State.calcChecks_errors (s : State) (so : Bool) :
    (s.calcChecks so).map Prod.snd = [.illNoengine, .illSeedovr, .illDlen, .cfgSeedovrWide] := rfl

theorem State.calcwChecks_errors (s : State) (so : Bool) :
    (s.calcwChecks so).map Prod.snd = [.illNoengine, .illNotwin, .illDlen, .cfgSeedovrWide] := rfl

/-! ### The errors that a window can raise -/

/-- What the range checks' errors say of the window: the length is looked at only when the start lies in the buffer (R162). -/
theorem windowChecks_error {n : Nat} {start length : Int} {e : Err}
    (h : firstFailing (windowChecks n start length) = some e) :
    (e = .rngStartNeg ∧ start < 0) ∨ e = .rngStartHigh ∨
      (start < 8 * (n : Int) ∧
        ((e = .rngLenNeg ∧ length < 0) ∨ (e = .rngEndHigh ∧ 8 * (n : Int) - start < length))) := by
  simp only [windowChecks, firstFailing, decide_eq_true_eq] at h
  split_ifs at h with hneg hhigh hlen hend <;> cases h
  · exact .inl ⟨rfl, hneg⟩
  · exact .inr (.inl rfl)
  · exact .inr (.inr ⟨not_le.mp hhigh, .inl ⟨rfl, hlen⟩⟩)
  · exact .inr (.inr ⟨not_le.mp hhigh, .inr ⟨rfl, hend⟩⟩)

/-- A windowed calculation fails by a range check or by the residue assertion (R162, R166). -/
theorem calcWin_error_cases {e : Engine} {rd : Nat → Byte} {n : Nat} {start length : Int} {seed0 : Nat} {err : Err}
    (h : calcWin e rd n start length seed0 = .error err) :
    firstFailing (windowChecks n start length) = some err ∨ err = .intResidue := by
  cases hc : firstFailing (windowChecks n start length) with
  | some f =>
    rw [calcWin_error e rd hc seed0] at h
    cases h
    exact .inl rfl
  | none =>
    simp only [calcWin, hc] at h
    split at h <;> cases h
    exact .inr rfl

/-- Of the five engines only the windowed one fails, and the whole buffer is out of range only when it is empty (R130, R135). -/
theorem State.runEngine_error {s : State} {seed0 : Nat} {e : Err} (h : s.runEngine seed0 = .error e) :
    e = .rngStartHigh ∨ e = .intResidue := by
  cases hkind : s.engine.kind with
  | win =>
    simp only [State.runEngine, hkind] at h
    rcases calcWin_error_cases h with hc | hres
    · rcases windowChecks_error hc with ⟨-, hneg⟩ | hhigh | ⟨-, ⟨-, hlen⟩ | ⟨-, hend⟩⟩
      · omega
      · exact .inl hhigh
      · omega
      · omega
    · exact .inr hres
  | tlsb | tmsb | gmsb | glsb => simp [State.runEngine, hkind] at h

/-- The errors of the window that `CALCW` names; with `DL = 1` it ends with the buffer, and then its length is in range (R161, R186). -/
theorem calcWin_commandWindow_error {s : State} {dl : Bool} {seed0 : Nat} {e : Err}
    (h : calcWin s.engine s.dataByte s.dlen.toNat s.windowStart (s.windowLength dl) seed0 = .error e) :
    e ∈ [.rngStartNeg, .rngStartHigh] ++ (if dl then [] else [.rngLenNeg, .rngEndHigh]) ++ [Err.intResidue] := by
  rcases calcWin_error_cases h with hc | rfl
  · cases dl with
    | false => rcases windowChecks_error hc with ⟨rfl, -⟩ | rfl | ⟨-, ⟨rfl, -⟩ | ⟨rfl, -⟩⟩ <;> decide
    | true =>
      rw [State.windowLength_true, ← State.windowStart] at hc
      rcases windowChecks_error hc with ⟨rfl, -⟩ | rfl | ⟨hlow, ⟨-, hlen⟩ | ⟨-, hend⟩⟩
      · decide
      · decide
      · omega
      · omega
  · simp

/-! ### The errors that a command can end in -/

/-- An answer to a command on `s` has `ERR = 1` only by the entry of one of the listed errors (R188, R190). -/
def FailsOnlyWith (errs : List Err) (s : State) (answer : Out) : Prop :=
  ∀ t, answer = .next t → t.status.err = true → ∃ e ∈ errs, s.ErrorOnly t e

theorem FailsOnlyWith.of_no_error {s x : State} (h : x.status.err = false) (errs : List Err) :
    FailsOnlyWith errs s (.next x) := by
  rintro _ ⟨⟩ herr
  simp [h] at herr

theorem FailsOnlyWith.raiseError {e : Err} {errs : List Err} (h : e ∈ errs) (s : State) :
    FailsOnlyWith errs s (.next (s.raiseError e)) := by
  rintro _ ⟨⟩ -
  exact ⟨e, h, rfl⟩

theorem FailsOnlyWith.guarded {checks : List (Bool × Err)} {raised errs : List Err} {s : State} {go : State → Out}
    (hchecks : checks.map Prod.snd = raised) (hraised : raised ⊆ errs) (hgo : FailsOnlyWith errs s (go s)) :
    FailsOnlyWith errs s (s.guarded checks go) := by
  cases hc : firstFailing checks with
  | none => exact guarded_pass s go hc ▸ hgo
  | some e =>
    rw [guarded_fail s go hc]
    exact .raiseError (hraised (hchecks ▸ List.mem_map_of_mem (firstFailing_mem hc))) s

theorem FailsOnlyWith.calculate {errs : List Err} {s : State} {r : Except Err Nat} (h : ∀ e, r = .error e → e ∈ errs) :
    FailsOnlyWith errs s (s.calculate r) := by
  intro t ht
  obtain ⟨-, ⟨v, -, rfl⟩ | ⟨e, hr, rfl⟩⟩ := calculate_next ht
  · simp
  · exact fun _ => ⟨e, h e hr, rfl⟩

theorem exec_gentab_failsOnlyWith (c : Conv) (s : State) : FailsOnlyWith c.gentab.errors s (exec c.gentab s) := by
  rw [exec_gentab, State.gentab]
  exact .guarded (widthPolyChecks_errors c _) (List.Subset.refl _) (.of_no_error (by simp) _)

theorem exec_build_failsOnlyWith (k : Kind) (s : State) : FailsOnlyWith k.build.errors s (exec k.build s) := by
  rw [exec_build, State.build]
  exact .guarded (buildChecks_errors k _) (List.Subset.refl _) (.of_no_error (by simp) _)

/-- Every command fails only with the errors of its row in R202. -/
theorem exec_failsOnlyWith (i : Instr) (s : State) : FailsOnlyWith i.errors s (exec i s) := by
  cases i with
  | gentabM => exact exec_gentab_failsOnlyWith .msb s
  | gentabL => exact exec_gentab_failsOnlyWith .lsb s
  | buildTlsb => exact exec_build_failsOnlyWith .tlsb s
  | buildTmsb => exact exec_build_failsOnlyWith .tmsb s
  | buildGmsb => exact exec_build_failsOnlyWith .gmsb s
  | buildGlsb => exact exec_build_failsOnlyWith .glsb s
  | buildWin => exact exec_build_failsOnlyWith .win s
  | rev n =>
    rw [exec, execRev]
    exact .guarded rfl (List.Subset.refl _) (.of_no_error (by simp) _)
  | buildAuto =>
    rw [exec, execBuildAuto]
    exact .guarded (commonChecks_errors _) (List.Subset.refl _) (.of_no_error (by simp) _)
  | calcBuffer so =>
    rw [exec, execCalc]
    refine .guarded (s.calcChecks_errors so) (List.subset_append_left _ _) (.calculate fun e he => ?_)
    rcases State.runEngine_error he with rfl | rfl <;> simp [Instr.errors]
  | calcWindow so dl =>
    rw [exec, execCalcw]
    refine .guarded (s.calcwChecks_errors so) (List.subset_append_left _ _) (.calculate fun e he => ?_)
    exact List.mem_append_right [.illNoengine, .illNotwin, .illDlen, .cfgSeedovrWide] (calcWin_commandWindow_error he)
  | clrerr => exact .of_no_error rfl _
  | srst => exact .of_no_error rfl _

/-- Settles O47: `SRST` is not among the failing commands, for its row in R202 is empty. -/
theorem failedCommandOnlyEntersItsError : Obligations.FailedCommandOnlyEntersItsError := by
  intro i s t h herr
  obtain ⟨e, he, hentry⟩ := exec_failsOnlyWith i s t h herr
  refine ⟨?_, e, he, hentry⟩
  rintro rfl
  exact absurd he List.not_mem_nil

end Sys2Proof.Machine
end

section
/-! Proofs about the state after reset (70_reset_and_hazards.md R210, R213): what its registers read as, and what its two memories hold. -/

namespace Sys2Proof.Machine

/-! ### The registers -/

/-- Of the implemented registers only the constants `ID` and `CAP` read other than 0 after reset (R210). -/
theorem State.readReg_reset (r : Reg) :
    State.reset.readReg r = if r.number = 0 then 0x43524301#64 else if r.number = 1 then 0x00100040#64 else 0#64 := by
  cases r <;> rfl

/-- The same by register number: an unimplemented number is neither that of `ID` nor that of `CAP`, and reads 0 (R69). -/
theorem State.portRead_reg_reset (n : Nat) :
    State.reset.portRead .reg n = if n = 0 then 0x43524301#64 else if n = 1 then 0x00100040#64 else 0#64 := by
  cases hn : Reg.ofNumber n with
  | none =>
    have hid : n ≠ 0 := by rintro rfl; cases hn
    have hcap : n ≠ 1 := by rintro rfl; cases hn
    rw [State.portRead_unimplemented _ hn, if_neg hid, if_neg hcap]
  | some r =>
    obtain rfl := Reg.eq_number_of_ofNumber hn
    rw [State.portRead_number, State.readReg_reset]

/-- Settles O12: no register but the constants reads other than 0, and the ROM is R102's byte reversal in every state. -/
theorem resetLeavesTheListedValues : Obligations.ResetLeavesTheListedValues :=
  ⟨fun n _ => State.portRead_reg_reset n, rfl, brev_toNat⟩

/-! ### The memories -/

/-- While the host has written no byte, every address holds its free value (R213; log 4). -/
theorem State.dataByte_of_data_nil {s : State} (h : s.data = []) (a : Nat) :
    s.dataByte a = Config.initData s.draws a := by
  rw [State.dataByte, h, Memory.lookup, Option.getD_none]

/-- While no table has been generated, every index holds its free value (R213; log 5). -/
theorem State.tableEntry_of_table_nil {s : State} (h : s.table = []) (i : Nat) :
    s.tableEntry i = Config.initTable s.draws i := by
  rw [State.tableEntry, h, List.getElem?_nil, Option.getD_none]

/-- Settles O57: the reset state lists no byte and no entry. -/
theorem resetMemoriesHoldFreeValues : Obligations.ResetMemoriesHoldFreeValues :=
  ⟨State.dataByte_of_data_nil rfl, State.tableEntry_of_table_nil rfl⟩

end Sys2Proof.Machine
end
